-- ==== Sys2Proof/Word.lean ====
section
/-! DEFINITION. The two word types of the core (R6). -/

namespace Sys2Proof

/-- A register, a memory cell, a stack entry, an operand byte: 8 bits (R6). -/
abbrev Byte := BitVec 8

/-- The program counter and an address: 16 bits (R6). -/
abbrev Word := BitVec 16

end Sys2Proof
end

