-- ==== Sys2Proof/Config.lean ====
section
/-! DEFINITION. The values this hardware takes for the parameters of R8 and R9, and the bounds of those of R7 and R8. The parameters `MEM_LEN` and `STACK_CAPACITY` themselves are arguments of `load` and `construct`, held in State (log entries 1 and 4). -/

namespace Sys2Proof.Config

/-- The value of `STACK_CAPACITY` that this hardware takes (R8; log entry 4). -/
abbrev stackCapacity : Nat := 128

/-- The values the parameter `STACK_CAPACITY` may take (R8). -/
abbrev CapacityAdmissible (n : Nat) : Prop := 1 ≤ n ∧ n ≤ 256

/-- `BRK_VECTOR`, the address BRK loads the new pc from (R9; log entry 5). -/
abbrev brkVector : Word := 0xFFFE

/-- The size of the full address space, the largest admissible `MEM_LEN` (R7). -/
abbrev addressSpace : Nat := 65536

end Sys2Proof.Config
end

