-- ==== Sys2Proof/Machine/State.lean ====
section
/-! DEFINITION. The state of the core (10_state.md, R51: nothing else), the three faults (R290), and the state after `construct()` (R50, R330). -/

namespace Sys2Proof.Machine

/-- The seven flags, each stored (R32): "named boolean fields". The P byte is computed from them (R38), it is not stored. -/
structure Flags where
  n : Bool
  v : Bool
  b : Bool
  d : Bool
  i : Bool
  z : Bool
  c : Bool
deriving DecidableEq, Repr

/-- The memory M: the bytes at the listed addresses, in one canonical form (`Memory.wf`). -/
abbrev Memory := List Host.Cell

/-- Which operation raised a stack fault (R290). -/
inductive StackOp where
  | push
  | pop
  | txs
deriving DecidableEq, Repr

/-- The three faults of R290. Each ends the step with the state unchanged (R294). -/
inductive Fault where
  /-- Raised by the opcode fetch when the byte has no row in the opcode table: the byte and the pc it came from (R291).
  Safe: the spec's own fault. -/
  | illegalOpcode (opcode : Byte) (pc : Word)
  /-- Raised by a memory access at or above MEM_LEN, and by `load` (R292, R333). The info is a number in 0..65536, not a
  word, because `load` can report 65536 (C15 of 90_conflicts.md). Safe: the spec's own fault. -/
  | outOfBoundsAccess (address : Nat)
  /-- Raised by a push on a full stack, a pull from an empty one, and TXS with X out of range (R293). Safe: the spec's own fault. -/
  | stackFault (op : StackOp)
deriving DecidableEq, Repr

/-- What has no meaning in the model. -/
inductive Refusal where
  /-- An instruction with no meaning yet, raised by its arm of `exec` (no arm raises it). Safe. -/
  | notModelled (mnemonic : String)
  /-- Raised by `load` on a core whose memory is bound: "not a transaction of this hardware" (R331; log entry 7). Safe. -/
  | secondLoad
  /-- Raised by `load` when the host gives a MEM_LEN outside 1..65536, which R7 does not admit (log entry 7). Safe. -/
  | memLenNotAdmissible
deriving DecidableEq, Repr

/-- The whole state of the core (R51). -/
structure State where
  /-- The accumulator A (R20, R21). -/
  a : Byte
  /-- Index X (R20, R22). -/
  x : Byte
  /-- Index Y (R20, R23). -/
  y : Byte
  /-- The address of the next opcode byte (R24, R25). -/
  pc : Word
  /-- The seven flags (R32). -/
  flags : Flags
  /-- The number of entries on the stack, 0..STACK_CAPACITY (R42). -/
  sp : Nat
  /-- STACK_CAPACITY, the parameter of R8: 1..256, on this hardware 128. `construct` sets it, nothing else writes it (log entry 4). -/
  stackCapacity : Nat
  /-- The stack array S, STACK_CAPACITY entries, a storage of its own (R43, R44). -/
  stack : List Byte
  /-- MEM_LEN: the addresses 0..memLen-1 are bound; 0 until `load` (R7, R330; log entry 1). -/
  memLen : Nat
  /-- The memory M (R60). -/
  mem : Memory
deriving DecidableEq, Repr

/-- The core of this hardware right after `construct()` (R50, R330), with STACK_CAPACITY = 128 (R8). The spec leaves the stack entries unspecified; this state takes
0x00 for each (DESIGN CHOICE, log entry 3). Memory is unbound until `load`. -/
def State.reset : State where
  a := 0x00
  x := 0x00
  y := 0x00
  pc := 0x0000
  flags := { n := false, v := false, b := false, d := false, i := false, z := false, c := false }
  sp := 0
  stackCapacity := Config.stackCapacity
  stack := List.replicate Config.stackCapacity 0x00
  memLen := 0
  mem := []

/-- The outcome of a step or of an instruction. -/
abbrev Result := Host.Outcome State Fault Refusal

end Sys2Proof.Machine
end

