-- ==== Sys2Proof/Machine/Flags.lean ====
section
/-! DEFINITION. status_flags_logic: `SetZN`, `Pack`, `Unpack` (R37 to R39) and the flag updates of BIT and the compares. -/

namespace Sys2Proof.Machine

/-- `SetZN(value)`: Z iff the byte is zero, N iff its bit 7 is set; no other flag (R37). -/
def Flags.setZN (f : Flags) (v : Byte) : Flags :=
  { f with z := v == 0x00, n := v.getLsbD 7 }

/-- `Pack()`: the byte N V 1 B D I Z C, bit 5 always 1 (R38). -/
def Flags.pack (f : Flags) : Byte :=
  BitVec.ofNat 8 (f.n.toNat * 128 + f.v.toNat * 64 + 32 + f.b.toNat * 16 + f.d.toNat * 8
    + f.i.toNat * 4 + f.z.toNat * 2 + f.c.toNat)

/-- `Unpack(p)`: every flag from its bit of the byte; bit 5 is ignored (R39). -/
def Flags.unpack (p : Byte) : Flags where
  n := p.getLsbD 7
  v := p.getLsbD 6
  b := p.getLsbD 4
  d := p.getLsbD 3
  i := p.getLsbD 2
  z := p.getLsbD 1
  c := p.getLsbD 0

/-- The flags of BIT: Z from `A & m`, N and V from bits 7 and 6 of the operand m itself (R178). -/
def Flags.setBit (f : Flags) (a m : Byte) : Flags :=
  { f with z := a &&& m == 0x00, n := m.getLsbD 7, v := m.getLsbD 6 }

end Sys2Proof.Machine
end

