-- ==== Sys2Proof/Machine/Alu.lean ====
section
/-! DEFINITION. alu_6502: the pure functions on bytes (R160 to R163, R190 to R194). Exact integer arithmetic, narrowed at the end. -/

namespace Sys2Proof.Machine

/-- The outputs of an addition or subtraction: result, carry and signed overflow (R160, R161). -/
structure AluOut where
  r : Byte
  carry : Bool
  overflow : Bool
deriving DecidableEq, Repr

/-- An exact signed result that no byte can hold: outside -128..127 (R160; C11 of 90_conflicts.md). -/
def signedOverflow (exact : Int) : Bool :=
  decide (exact < -128) || decide (127 < exact)

/-- `AddWithCarry(a, m, c)` (R160). The D flag is no argument: arithmetic is binary always. -/
def addWithCarry (a m : Byte) (c : Bool) : AluOut where
  r := BitVec.ofNat 8 (a.toNat + m.toNat + c.toNat)
  carry := decide (255 < a.toNat + m.toNat + c.toNat)
  overflow := signedOverflow (a.toInt + m.toInt + c.toNat)

/-- `SubWithBorrow(a, m, c)`: `a - m - (1 - c)`; carry out 1 means that no borrow was needed (R161). -/
def subWithBorrow (a m : Byte) (c : Bool) : AluOut where
  r := BitVec.ofInt 8 ((a.toNat : Int) - m.toNat - (1 - c.toNat))
  carry := decide (0 ≤ (a.toNat : Int) - m.toNat - (1 - c.toNat))
  overflow := signedOverflow (a.toInt - m.toInt - (1 - c.toNat))

/-- The flags a compare leaves: `Compare(reg, m)` gives N, Z and C; V and the others are kept (R162, R180 to R182). -/
def Flags.setCompare (f : Flags) (reg m : Byte) : Flags :=
  { f with n := (BitVec.ofInt 8 ((reg.toNat : Int) - m.toNat)).getLsbD 7,
           z := reg == m, c := decide (m.toNat ≤ reg.toNat) }

/-- The flags ADC and SBC leave: C and V from the ALU, Z and N from the result (R170, R171). -/
def Flags.setArith (f : Flags) (o : AluOut) : Flags :=
  Flags.setZN { f with c := o.carry, v := o.overflow } o.r

/-- `ShiftLeft(v)`: bit 7 leaves to the carry, 0 enters at bit 0 (R190). The carry in is not used. -/
def shiftLeft (v : Byte) (_ : Bool) : Byte × Bool :=
  (v <<< 1, v.getLsbD 7)

/-- `ShiftRight(v)`: bit 0 leaves to the carry, 0 enters at bit 7 (R191). The carry in is not used. -/
def shiftRight (v : Byte) (_ : Bool) : Byte × Bool :=
  (v >>> 1, v.getLsbD 0)

/-- `RotateLeft(v, c)`: the old carry enters at bit 0, bit 7 leaves to the carry (R192). -/
def rotateLeft (v : Byte) (c : Bool) : Byte × Bool :=
  (v <<< 1 ||| BitVec.ofNat 8 c.toNat, v.getLsbD 7)

/-- `RotateRight(v, c)`: the old carry enters at bit 7, bit 0 leaves to the carry (R193). -/
def rotateRight (v : Byte) (c : Bool) : Byte × Bool :=
  (v >>> 1 ||| BitVec.ofNat 8 c.toNat <<< 7, v.getLsbD 0)

/-- `Inc(v)`: add 1 modulo 256 (R194). -/
def incByte (v : Byte) : Byte := v + 1

/-- `Dec(v)`: subtract 1 modulo 256 (R194). -/
def decByte (v : Byte) : Byte := v - 1

end Sys2Proof.Machine
end

