-- ==== Sys2Proof/Syntax.lean ====
section
/-! DEFINITION. The instruction set as syntax: the 56 mnemonics (R3), the 13 addressing modes (R92), and one constructor of `Instr` per row of spec/opcode_table.json, with its operand byte `b` or its operand word `w` (R90). -/

namespace Sys2Proof

/-- The 56 mnemonics (R3). -/
inductive Mnemonic where
  | adc | and | asl | bcc | bcs | beq | bit | bmi
  | bne | bpl | brk | bvc | bvs | clc | cld | cli
  | clv | cmp | cpx | cpy | dec | dex | dey | eor
  | inc | inx | iny | jmp | jsr | lda | ldx | ldy
  | lsr | nop | ora | pha | php | pla | plp | rol
  | ror | rti | rts | sbc | sec | sed | sei | sta
  | stx | sty | tax | tay | tsx | txa | txs | tya
deriving DecidableEq, Repr

/-- The 13 addressing modes (R92). -/
inductive Mode where
  | implied | relative | accumulator | immediate | zeroPage | zeroPageX
  | zeroPageY | absolute | absoluteX | absoluteY | indirect | indirectX | indirectY
deriving DecidableEq, Repr

/-- The 151 instructions, one per defined opcode byte (R108). Every operand value is legal (R111), so every term is an instruction. -/
inductive Instr where
  | adcImm (b : Byte) | adcZp (b : Byte) | adcZpx (b : Byte) | adcAbs (w : Word) | adcAbsx (w : Word) | adcAbsy (w : Word) | adcIndx (b : Byte) | adcIndy (b : Byte)
  | andImm (b : Byte) | andZp (b : Byte) | andZpx (b : Byte) | andAbs (w : Word) | andAbsx (w : Word) | andAbsy (w : Word) | andIndx (b : Byte) | andIndy (b : Byte)
  | aslAcc | aslZp (b : Byte) | aslZpx (b : Byte) | aslAbs (w : Word) | aslAbsx (w : Word)
  | bcc (b : Byte)
  | bcs (b : Byte)
  | beq (b : Byte)
  | bitZp (b : Byte) | bitAbs (w : Word)
  | bmi (b : Byte)
  | bne (b : Byte)
  | bpl (b : Byte)
  | brk
  | bvc (b : Byte)
  | bvs (b : Byte)
  | clc
  | cld
  | cli
  | clv
  | cmpImm (b : Byte) | cmpZp (b : Byte) | cmpZpx (b : Byte) | cmpAbs (w : Word) | cmpAbsx (w : Word) | cmpAbsy (w : Word) | cmpIndx (b : Byte) | cmpIndy (b : Byte)
  | cpxImm (b : Byte) | cpxZp (b : Byte) | cpxAbs (w : Word)
  | cpyImm (b : Byte) | cpyZp (b : Byte) | cpyAbs (w : Word)
  | decZp (b : Byte) | decZpx (b : Byte) | decAbs (w : Word) | decAbsx (w : Word)
  | dex
  | dey
  | eorImm (b : Byte) | eorZp (b : Byte) | eorZpx (b : Byte) | eorAbs (w : Word) | eorAbsx (w : Word) | eorAbsy (w : Word) | eorIndx (b : Byte) | eorIndy (b : Byte)
  | incZp (b : Byte) | incZpx (b : Byte) | incAbs (w : Word) | incAbsx (w : Word)
  | inx
  | iny
  | jmpAbs (w : Word) | jmpInd (w : Word)
  | jsrAbs (w : Word)
  | ldaImm (b : Byte) | ldaZp (b : Byte) | ldaZpx (b : Byte) | ldaAbs (w : Word) | ldaAbsx (w : Word) | ldaAbsy (w : Word) | ldaIndx (b : Byte) | ldaIndy (b : Byte)
  | ldxImm (b : Byte) | ldxZp (b : Byte) | ldxZpy (b : Byte) | ldxAbs (w : Word) | ldxAbsy (w : Word)
  | ldyImm (b : Byte) | ldyZp (b : Byte) | ldyZpx (b : Byte) | ldyAbs (w : Word) | ldyAbsx (w : Word)
  | lsrAcc | lsrZp (b : Byte) | lsrZpx (b : Byte) | lsrAbs (w : Word) | lsrAbsx (w : Word)
  | nop
  | oraImm (b : Byte) | oraZp (b : Byte) | oraZpx (b : Byte) | oraAbs (w : Word) | oraAbsx (w : Word) | oraAbsy (w : Word) | oraIndx (b : Byte) | oraIndy (b : Byte)
  | pha
  | php
  | pla
  | plp
  | rolAcc | rolZp (b : Byte) | rolZpx (b : Byte) | rolAbs (w : Word) | rolAbsx (w : Word)
  | rorAcc | rorZp (b : Byte) | rorZpx (b : Byte) | rorAbs (w : Word) | rorAbsx (w : Word)
  | rti
  | rts
  | sbcImm (b : Byte) | sbcZp (b : Byte) | sbcZpx (b : Byte) | sbcAbs (w : Word) | sbcAbsx (w : Word) | sbcAbsy (w : Word) | sbcIndx (b : Byte) | sbcIndy (b : Byte)
  | sec
  | sed
  | sei
  | staZp (b : Byte) | staZpx (b : Byte) | staAbs (w : Word) | staAbsx (w : Word) | staAbsy (w : Word) | staIndx (b : Byte) | staIndy (b : Byte)
  | stxZp (b : Byte) | stxZpy (b : Byte) | stxAbs (w : Word)
  | styZp (b : Byte) | styZpx (b : Byte) | styAbs (w : Word)
  | tax
  | tay
  | tsx
  | txa
  | txs
  | tya
deriving DecidableEq, Repr

/-- The (mnemonic, addressing mode) pair of an instruction (R91). -/
def Instr.form : Instr → Mnemonic × Mode
  | .adcImm _ => (.adc, .immediate)
  | .adcZp _ => (.adc, .zeroPage)
  | .adcZpx _ => (.adc, .zeroPageX)
  | .adcAbs _ => (.adc, .absolute)
  | .adcAbsx _ => (.adc, .absoluteX)
  | .adcAbsy _ => (.adc, .absoluteY)
  | .adcIndx _ => (.adc, .indirectX)
  | .adcIndy _ => (.adc, .indirectY)
  | .andImm _ => (.and, .immediate)
  | .andZp _ => (.and, .zeroPage)
  | .andZpx _ => (.and, .zeroPageX)
  | .andAbs _ => (.and, .absolute)
  | .andAbsx _ => (.and, .absoluteX)
  | .andAbsy _ => (.and, .absoluteY)
  | .andIndx _ => (.and, .indirectX)
  | .andIndy _ => (.and, .indirectY)
  | .aslAcc => (.asl, .accumulator)
  | .aslZp _ => (.asl, .zeroPage)
  | .aslZpx _ => (.asl, .zeroPageX)
  | .aslAbs _ => (.asl, .absolute)
  | .aslAbsx _ => (.asl, .absoluteX)
  | .bcc _ => (.bcc, .relative)
  | .bcs _ => (.bcs, .relative)
  | .beq _ => (.beq, .relative)
  | .bitZp _ => (.bit, .zeroPage)
  | .bitAbs _ => (.bit, .absolute)
  | .bmi _ => (.bmi, .relative)
  | .bne _ => (.bne, .relative)
  | .bpl _ => (.bpl, .relative)
  | .brk => (.brk, .implied)
  | .bvc _ => (.bvc, .relative)
  | .bvs _ => (.bvs, .relative)
  | .clc => (.clc, .implied)
  | .cld => (.cld, .implied)
  | .cli => (.cli, .implied)
  | .clv => (.clv, .implied)
  | .cmpImm _ => (.cmp, .immediate)
  | .cmpZp _ => (.cmp, .zeroPage)
  | .cmpZpx _ => (.cmp, .zeroPageX)
  | .cmpAbs _ => (.cmp, .absolute)
  | .cmpAbsx _ => (.cmp, .absoluteX)
  | .cmpAbsy _ => (.cmp, .absoluteY)
  | .cmpIndx _ => (.cmp, .indirectX)
  | .cmpIndy _ => (.cmp, .indirectY)
  | .cpxImm _ => (.cpx, .immediate)
  | .cpxZp _ => (.cpx, .zeroPage)
  | .cpxAbs _ => (.cpx, .absolute)
  | .cpyImm _ => (.cpy, .immediate)
  | .cpyZp _ => (.cpy, .zeroPage)
  | .cpyAbs _ => (.cpy, .absolute)
  | .decZp _ => (.dec, .zeroPage)
  | .decZpx _ => (.dec, .zeroPageX)
  | .decAbs _ => (.dec, .absolute)
  | .decAbsx _ => (.dec, .absoluteX)
  | .dex => (.dex, .implied)
  | .dey => (.dey, .implied)
  | .eorImm _ => (.eor, .immediate)
  | .eorZp _ => (.eor, .zeroPage)
  | .eorZpx _ => (.eor, .zeroPageX)
  | .eorAbs _ => (.eor, .absolute)
  | .eorAbsx _ => (.eor, .absoluteX)
  | .eorAbsy _ => (.eor, .absoluteY)
  | .eorIndx _ => (.eor, .indirectX)
  | .eorIndy _ => (.eor, .indirectY)
  | .incZp _ => (.inc, .zeroPage)
  | .incZpx _ => (.inc, .zeroPageX)
  | .incAbs _ => (.inc, .absolute)
  | .incAbsx _ => (.inc, .absoluteX)
  | .inx => (.inx, .implied)
  | .iny => (.iny, .implied)
  | .jmpAbs _ => (.jmp, .absolute)
  | .jmpInd _ => (.jmp, .indirect)
  | .jsrAbs _ => (.jsr, .absolute)
  | .ldaImm _ => (.lda, .immediate)
  | .ldaZp _ => (.lda, .zeroPage)
  | .ldaZpx _ => (.lda, .zeroPageX)
  | .ldaAbs _ => (.lda, .absolute)
  | .ldaAbsx _ => (.lda, .absoluteX)
  | .ldaAbsy _ => (.lda, .absoluteY)
  | .ldaIndx _ => (.lda, .indirectX)
  | .ldaIndy _ => (.lda, .indirectY)
  | .ldxImm _ => (.ldx, .immediate)
  | .ldxZp _ => (.ldx, .zeroPage)
  | .ldxZpy _ => (.ldx, .zeroPageY)
  | .ldxAbs _ => (.ldx, .absolute)
  | .ldxAbsy _ => (.ldx, .absoluteY)
  | .ldyImm _ => (.ldy, .immediate)
  | .ldyZp _ => (.ldy, .zeroPage)
  | .ldyZpx _ => (.ldy, .zeroPageX)
  | .ldyAbs _ => (.ldy, .absolute)
  | .ldyAbsx _ => (.ldy, .absoluteX)
  | .lsrAcc => (.lsr, .accumulator)
  | .lsrZp _ => (.lsr, .zeroPage)
  | .lsrZpx _ => (.lsr, .zeroPageX)
  | .lsrAbs _ => (.lsr, .absolute)
  | .lsrAbsx _ => (.lsr, .absoluteX)
  | .nop => (.nop, .implied)
  | .oraImm _ => (.ora, .immediate)
  | .oraZp _ => (.ora, .zeroPage)
  | .oraZpx _ => (.ora, .zeroPageX)
  | .oraAbs _ => (.ora, .absolute)
  | .oraAbsx _ => (.ora, .absoluteX)
  | .oraAbsy _ => (.ora, .absoluteY)
  | .oraIndx _ => (.ora, .indirectX)
  | .oraIndy _ => (.ora, .indirectY)
  | .pha => (.pha, .implied)
  | .php => (.php, .implied)
  | .pla => (.pla, .implied)
  | .plp => (.plp, .implied)
  | .rolAcc => (.rol, .accumulator)
  | .rolZp _ => (.rol, .zeroPage)
  | .rolZpx _ => (.rol, .zeroPageX)
  | .rolAbs _ => (.rol, .absolute)
  | .rolAbsx _ => (.rol, .absoluteX)
  | .rorAcc => (.ror, .accumulator)
  | .rorZp _ => (.ror, .zeroPage)
  | .rorZpx _ => (.ror, .zeroPageX)
  | .rorAbs _ => (.ror, .absolute)
  | .rorAbsx _ => (.ror, .absoluteX)
  | .rti => (.rti, .implied)
  | .rts => (.rts, .implied)
  | .sbcImm _ => (.sbc, .immediate)
  | .sbcZp _ => (.sbc, .zeroPage)
  | .sbcZpx _ => (.sbc, .zeroPageX)
  | .sbcAbs _ => (.sbc, .absolute)
  | .sbcAbsx _ => (.sbc, .absoluteX)
  | .sbcAbsy _ => (.sbc, .absoluteY)
  | .sbcIndx _ => (.sbc, .indirectX)
  | .sbcIndy _ => (.sbc, .indirectY)
  | .sec => (.sec, .implied)
  | .sed => (.sed, .implied)
  | .sei => (.sei, .implied)
  | .staZp _ => (.sta, .zeroPage)
  | .staZpx _ => (.sta, .zeroPageX)
  | .staAbs _ => (.sta, .absolute)
  | .staAbsx _ => (.sta, .absoluteX)
  | .staAbsy _ => (.sta, .absoluteY)
  | .staIndx _ => (.sta, .indirectX)
  | .staIndy _ => (.sta, .indirectY)
  | .stxZp _ => (.stx, .zeroPage)
  | .stxZpy _ => (.stx, .zeroPageY)
  | .stxAbs _ => (.stx, .absolute)
  | .styZp _ => (.sty, .zeroPage)
  | .styZpx _ => (.sty, .zeroPageX)
  | .styAbs _ => (.sty, .absolute)
  | .tax => (.tax, .implied)
  | .tay => (.tay, .implied)
  | .tsx => (.tsx, .implied)
  | .txa => (.txa, .implied)
  | .txs => (.txs, .implied)
  | .tya => (.tya, .implied)

/-- The mnemonic of an instruction (R91). -/
def Instr.mnemonic (i : Instr) : Mnemonic := i.form.1

/-- The addressing mode of an instruction (R91). -/
def Instr.mode (i : Instr) : Mode := i.form.2

end Sys2Proof
end

