-- ==== Sys2Proof/WellFormed.lean ====
section
/-! DEFINITION. Which (mnemonic, mode) pairs are instructions. Operand bytes need no check: "every byte value is a legal operand of every mode" (R111). Two checks: the mode has what the mnemonic uses (R109), and the pair stands in the table of R108. -/

namespace Sys2Proof

/-- What an instruction uses of its accessor (R109). -/
inductive Uses where
  | nothing
  | get
  | set
  | getThenSet
  | target
deriving DecidableEq, Repr

/-- The "uses" column of R109. -/
def Mnemonic.uses : Mnemonic → Uses
  | .adc | .and | .bit | .cmp | .cpx | .cpy | .eor | .lda | .ldx
  | .ldy | .ora | .sbc => .get
  | .sta | .stx | .sty => .set
  | .asl | .dec | .inc | .lsr | .rol | .ror => .getThenSet
  | .bcc | .bcs | .beq | .bmi | .bne | .bpl | .bvc | .bvs | .jmp
  | .jsr => .target
  | .brk | .clc | .cld | .cli | .clv | .dex | .dey | .inx | .iny
  | .nop | .pha | .php | .pla | .plp | .rti | .rts | .sec | .sed
  | .sei | .tax | .tay | .tsx | .txa | .txs | .tya => .nothing

/-- Whether the accessor a mode makes has what is used (the shapes of R94: None, RegA, Imm, Mem, Target). -/
def Mode.offers : Mode → Uses → Bool
  | .implied, u => u == .nothing
  | .accumulator, u => u == .get || u == .set || u == .getThenSet
  | .immediate, u => u == .get
  | .zeroPage, u | .zeroPageX, u | .zeroPageY, u => u == .get || u == .set || u == .getThenSet
  | .absolute, u => u == .get || u == .set || u == .getThenSet || u == .target
  | .absoluteX, u | .absoluteY, u | .indirectX, u | .indirectY, u => u == .get || u == .set || u == .getThenSet
  | .indirect, u | .relative, u => u == .target

/-- The modes of a mnemonic: its row of the table of R108. -/
def Mnemonic.modes : Mnemonic → List Mode
  | .adc | .and | .cmp | .eor | .lda | .ora | .sbc =>
    [.immediate, .zeroPage, .zeroPageX, .absolute, .absoluteX, .absoluteY, .indirectX, .indirectY]
  | .asl | .lsr | .rol | .ror => [.accumulator, .zeroPage, .zeroPageX, .absolute, .absoluteX]
  | .bcc | .bcs | .beq | .bmi | .bne | .bpl | .bvc | .bvs => [.relative]
  | .bit => [.zeroPage, .absolute]
  | .brk | .clc | .cld | .cli | .clv | .dex | .dey | .inx | .iny
  | .nop | .pha | .php | .pla | .plp | .rti | .rts | .sec | .sed
  | .sei | .tax | .tay | .tsx | .txa | .txs | .tya => [.implied]
  | .cpx | .cpy => [.immediate, .zeroPage, .absolute]
  | .dec | .inc => [.zeroPage, .zeroPageX, .absolute, .absoluteX]
  | .jmp => [.absolute, .indirect]
  | .jsr => [.absolute]
  | .ldx => [.immediate, .zeroPage, .zeroPageY, .absolute, .absoluteY]
  | .ldy => [.immediate, .zeroPage, .zeroPageX, .absolute, .absoluteX]
  | .sta =>
    [.zeroPage, .zeroPageX, .absolute, .absoluteX, .absoluteY, .indirectX, .indirectY]
  | .stx => [.zeroPage, .zeroPageY, .absolute]
  | .sty => [.zeroPage, .zeroPageX, .absolute]

/-- A pair is an instruction when the mode offers what the mnemonic uses (R109) and the table has the pair (R108). -/
def formWellFormed (f : Mnemonic × Mode) : Bool :=
  f.2.offers f.1.uses && f.1.modes.contains f.2

/-- The well-formedness check of an instruction. -/
def Instr.wellFormed (i : Instr) : Bool := formWellFormed i.form

end Sys2Proof
end

