-- ==== Sys2Proof/Decode.lean ====
section
/-! DEFINITION. instruction_decoder: byte order of operands (R67), instruction length (R92), the opcode table (R108), the decoder, total on any bytes and rejecting by name (R91, R110), and the encoder. -/

namespace Sys2Proof

/-- `lo8(w)`: the low byte of a word (00_scope.md section 5). -/
def lo8 (w : Word) : Byte := w.setWidth 8

/-- `hi8(w)`: the high byte of a word (00_scope.md section 5). -/
def hi8 (w : Word) : Byte := (w >>> 8).setWidth 8

/-- `hi:lo`: two bytes as a word (00_scope.md section 5). -/
def wordOf (hi lo : Byte) : Word := hi ++ lo

/-- The byte count of a mode, fixed and known before execution (R92). -/
def Mode.length : Mode → Nat
  | .implied | .accumulator => 1
  | .immediate | .zeroPage | .zeroPageX | .zeroPageY | .indirectX | .indirectY | .relative => 2
  | .absolute | .absoluteX | .absoluteY | .indirect => 3

/-- `bytes_consumed`: the length of an instruction in bytes (R12, R92). -/
def Instr.length (i : Instr) : Nat := i.mode.length

/-- What an opcode byte asks for next: no operand byte, one, or two (R90). -/
inductive Shape where
  | one (i : Instr)
  | two (mk : Byte → Instr)
  | three (mk : Word → Instr)

/-- The opcode table, bytes 0x00 to 0x0F (R108, the table by opcode byte). -/
def opcodeRows0 : List (Nat × Shape) :=
  [(0x00, .one .brk), (0x01, .two .oraIndx), (0x05, .two .oraZp), (0x06, .two .aslZp),
   (0x08, .one .php), (0x09, .two .oraImm), (0x0A, .one .aslAcc), (0x0D, .three .oraAbs),
   (0x0E, .three .aslAbs)]

/-- The opcode table, bytes 0x10 to 0x1F (R108, the table by opcode byte). -/
def opcodeRows1 : List (Nat × Shape) :=
  [(0x10, .two .bpl), (0x11, .two .oraIndy), (0x15, .two .oraZpx), (0x16, .two .aslZpx),
   (0x18, .one .clc), (0x19, .three .oraAbsy), (0x1D, .three .oraAbsx), (0x1E, .three .aslAbsx)]

/-- The opcode table, bytes 0x20 to 0x2F (R108, the table by opcode byte). -/
def opcodeRows2 : List (Nat × Shape) :=
  [(0x20, .three .jsrAbs), (0x21, .two .andIndx), (0x24, .two .bitZp), (0x25, .two .andZp),
   (0x26, .two .rolZp), (0x28, .one .plp), (0x29, .two .andImm), (0x2A, .one .rolAcc),
   (0x2C, .three .bitAbs), (0x2D, .three .andAbs), (0x2E, .three .rolAbs)]

/-- The opcode table, bytes 0x30 to 0x3F (R108, the table by opcode byte). -/
def opcodeRows3 : List (Nat × Shape) :=
  [(0x30, .two .bmi), (0x31, .two .andIndy), (0x35, .two .andZpx), (0x36, .two .rolZpx),
   (0x38, .one .sec), (0x39, .three .andAbsy), (0x3D, .three .andAbsx), (0x3E, .three .rolAbsx)]

/-- The opcode table, bytes 0x40 to 0x4F (R108, the table by opcode byte). -/
def opcodeRows4 : List (Nat × Shape) :=
  [(0x40, .one .rti), (0x41, .two .eorIndx), (0x45, .two .eorZp), (0x46, .two .lsrZp),
   (0x48, .one .pha), (0x49, .two .eorImm), (0x4A, .one .lsrAcc), (0x4C, .three .jmpAbs),
   (0x4D, .three .eorAbs), (0x4E, .three .lsrAbs)]

/-- The opcode table, bytes 0x50 to 0x5F (R108, the table by opcode byte). -/
def opcodeRows5 : List (Nat × Shape) :=
  [(0x50, .two .bvc), (0x51, .two .eorIndy), (0x55, .two .eorZpx), (0x56, .two .lsrZpx),
   (0x58, .one .cli), (0x59, .three .eorAbsy), (0x5D, .three .eorAbsx), (0x5E, .three .lsrAbsx)]

/-- The opcode table, bytes 0x60 to 0x6F (R108, the table by opcode byte). -/
def opcodeRows6 : List (Nat × Shape) :=
  [(0x60, .one .rts), (0x61, .two .adcIndx), (0x65, .two .adcZp), (0x66, .two .rorZp),
   (0x68, .one .pla), (0x69, .two .adcImm), (0x6A, .one .rorAcc), (0x6C, .three .jmpInd),
   (0x6D, .three .adcAbs), (0x6E, .three .rorAbs)]

/-- The opcode table, bytes 0x70 to 0x7F (R108, the table by opcode byte). -/
def opcodeRows7 : List (Nat × Shape) :=
  [(0x70, .two .bvs), (0x71, .two .adcIndy), (0x75, .two .adcZpx), (0x76, .two .rorZpx),
   (0x78, .one .sei), (0x79, .three .adcAbsy), (0x7D, .three .adcAbsx), (0x7E, .three .rorAbsx)]

/-- The opcode table, bytes 0x80 to 0x8F (R108, the table by opcode byte). -/
def opcodeRows8 : List (Nat × Shape) :=
  [(0x81, .two .staIndx), (0x84, .two .styZp), (0x85, .two .staZp), (0x86, .two .stxZp),
   (0x88, .one .dey), (0x8A, .one .txa), (0x8C, .three .styAbs), (0x8D, .three .staAbs),
   (0x8E, .three .stxAbs)]

/-- The opcode table, bytes 0x90 to 0x9F (R108, the table by opcode byte). -/
def opcodeRows9 : List (Nat × Shape) :=
  [(0x90, .two .bcc), (0x91, .two .staIndy), (0x94, .two .styZpx), (0x95, .two .staZpx),
   (0x96, .two .stxZpy), (0x98, .one .tya), (0x99, .three .staAbsy), (0x9A, .one .txs),
   (0x9D, .three .staAbsx)]

/-- The opcode table, bytes 0xA0 to 0xAF (R108, the table by opcode byte). -/
def opcodeRowsA : List (Nat × Shape) :=
  [(0xA0, .two .ldyImm), (0xA1, .two .ldaIndx), (0xA2, .two .ldxImm), (0xA4, .two .ldyZp),
   (0xA5, .two .ldaZp), (0xA6, .two .ldxZp), (0xA8, .one .tay), (0xA9, .two .ldaImm),
   (0xAA, .one .tax), (0xAC, .three .ldyAbs), (0xAD, .three .ldaAbs), (0xAE, .three .ldxAbs)]

/-- The opcode table, bytes 0xB0 to 0xBF (R108, the table by opcode byte). -/
def opcodeRowsB : List (Nat × Shape) :=
  [(0xB0, .two .bcs), (0xB1, .two .ldaIndy), (0xB4, .two .ldyZpx), (0xB5, .two .ldaZpx),
   (0xB6, .two .ldxZpy), (0xB8, .one .clv), (0xB9, .three .ldaAbsy), (0xBA, .one .tsx),
   (0xBC, .three .ldyAbsx), (0xBD, .three .ldaAbsx), (0xBE, .three .ldxAbsy)]

/-- The opcode table, bytes 0xC0 to 0xCF (R108, the table by opcode byte). -/
def opcodeRowsC : List (Nat × Shape) :=
  [(0xC0, .two .cpyImm), (0xC1, .two .cmpIndx), (0xC4, .two .cpyZp), (0xC5, .two .cmpZp),
   (0xC6, .two .decZp), (0xC8, .one .iny), (0xC9, .two .cmpImm), (0xCA, .one .dex),
   (0xCC, .three .cpyAbs), (0xCD, .three .cmpAbs), (0xCE, .three .decAbs)]

/-- The opcode table, bytes 0xD0 to 0xDF (R108, the table by opcode byte). -/
def opcodeRowsD : List (Nat × Shape) :=
  [(0xD0, .two .bne), (0xD1, .two .cmpIndy), (0xD5, .two .cmpZpx), (0xD6, .two .decZpx),
   (0xD8, .one .cld), (0xD9, .three .cmpAbsy), (0xDD, .three .cmpAbsx), (0xDE, .three .decAbsx)]

/-- The opcode table, bytes 0xE0 to 0xEF (R108, the table by opcode byte). -/
def opcodeRowsE : List (Nat × Shape) :=
  [(0xE0, .two .cpxImm), (0xE1, .two .sbcIndx), (0xE4, .two .cpxZp), (0xE5, .two .sbcZp),
   (0xE6, .two .incZp), (0xE8, .one .inx), (0xE9, .two .sbcImm), (0xEA, .one .nop),
   (0xEC, .three .cpxAbs), (0xED, .three .sbcAbs), (0xEE, .three .incAbs)]

/-- The opcode table, bytes 0xF0 to 0xFF (R108, the table by opcode byte). -/
def opcodeRowsF : List (Nat × Shape) :=
  [(0xF0, .two .beq), (0xF1, .two .sbcIndy), (0xF5, .two .sbcZpx), (0xF6, .two .incZpx),
   (0xF8, .one .sed), (0xF9, .three .sbcAbsy), (0xFD, .three .sbcAbsx), (0xFE, .three .incAbsx)]

/-- The whole opcode table: 151 rows, a constant of the machine (R91, R108). -/
def opcodeTable : List (Nat × Shape) :=
  opcodeRows0 ++ opcodeRows1 ++ opcodeRows2 ++ opcodeRows3 ++ opcodeRows4 ++ opcodeRows5 ++ opcodeRows6 ++ opcodeRows7 ++
  opcodeRows8 ++ opcodeRows9 ++ opcodeRowsA ++ opcodeRowsB ++ opcodeRowsC ++ opcodeRowsD ++ opcodeRowsE ++ opcodeRowsF

/-- `Decode(opc)`: the row of an opcode byte, or none: the byte is illegal (R91, R110). It depends on the byte only. -/
def decodeOpcode (opc : Byte) : Option Shape := opcodeTable.lookup opc.toNat

/-- Why bytes are no instruction. -/
inductive DecodeError where
  /-- There is no byte to decode. -/
  | noBytes
  /-- The opcode byte has no row in the table (R110). -/
  | illegalOpcode (opc : Byte)
  /-- The bytes end before the operand does. -/
  | truncated (opc : Byte)
deriving DecidableEq, Repr

/-- The decoder: an instruction and the bytes after it, or the reason why not (R90, R91). The low operand byte comes first (R67). -/
def decode : List Byte → Except DecodeError (Instr × List Byte)
  | [] => .error .noBytes
  | opc :: rest =>
    match decodeOpcode opc, rest with
    | none, _ => .error (.illegalOpcode opc)
    | some (.one i), _ => .ok (i, rest)
    | some (.two mk), b :: rest' => .ok (mk b, rest')
    | some (.two _), [] => .error (.truncated opc)
    | some (.three mk), lo :: hi :: rest' => .ok (mk (wordOf hi lo), rest')
    | some (.three _), _ => .error (.truncated opc)

/-- The encoder, written from the table by mnemonic of R108: opcode byte, then operand bytes, low byte first (R90). -/
def encode : Instr → List Byte
  | .adcImm b => [0x69, b]
  | .adcZp b => [0x65, b]
  | .adcZpx b => [0x75, b]
  | .adcAbs w => [0x6D, lo8 w, hi8 w]
  | .adcAbsx w => [0x7D, lo8 w, hi8 w]
  | .adcAbsy w => [0x79, lo8 w, hi8 w]
  | .adcIndx b => [0x61, b]
  | .adcIndy b => [0x71, b]
  | .andImm b => [0x29, b]
  | .andZp b => [0x25, b]
  | .andZpx b => [0x35, b]
  | .andAbs w => [0x2D, lo8 w, hi8 w]
  | .andAbsx w => [0x3D, lo8 w, hi8 w]
  | .andAbsy w => [0x39, lo8 w, hi8 w]
  | .andIndx b => [0x21, b]
  | .andIndy b => [0x31, b]
  | .aslAcc => [0x0A]
  | .aslZp b => [0x06, b]
  | .aslZpx b => [0x16, b]
  | .aslAbs w => [0x0E, lo8 w, hi8 w]
  | .aslAbsx w => [0x1E, lo8 w, hi8 w]
  | .bcc b => [0x90, b]
  | .bcs b => [0xB0, b]
  | .beq b => [0xF0, b]
  | .bitZp b => [0x24, b]
  | .bitAbs w => [0x2C, lo8 w, hi8 w]
  | .bmi b => [0x30, b]
  | .bne b => [0xD0, b]
  | .bpl b => [0x10, b]
  | .brk => [0x00]
  | .bvc b => [0x50, b]
  | .bvs b => [0x70, b]
  | .clc => [0x18]
  | .cld => [0xD8]
  | .cli => [0x58]
  | .clv => [0xB8]
  | .cmpImm b => [0xC9, b]
  | .cmpZp b => [0xC5, b]
  | .cmpZpx b => [0xD5, b]
  | .cmpAbs w => [0xCD, lo8 w, hi8 w]
  | .cmpAbsx w => [0xDD, lo8 w, hi8 w]
  | .cmpAbsy w => [0xD9, lo8 w, hi8 w]
  | .cmpIndx b => [0xC1, b]
  | .cmpIndy b => [0xD1, b]
  | .cpxImm b => [0xE0, b]
  | .cpxZp b => [0xE4, b]
  | .cpxAbs w => [0xEC, lo8 w, hi8 w]
  | .cpyImm b => [0xC0, b]
  | .cpyZp b => [0xC4, b]
  | .cpyAbs w => [0xCC, lo8 w, hi8 w]
  | .decZp b => [0xC6, b]
  | .decZpx b => [0xD6, b]
  | .decAbs w => [0xCE, lo8 w, hi8 w]
  | .decAbsx w => [0xDE, lo8 w, hi8 w]
  | .dex => [0xCA]
  | .dey => [0x88]
  | .eorImm b => [0x49, b]
  | .eorZp b => [0x45, b]
  | .eorZpx b => [0x55, b]
  | .eorAbs w => [0x4D, lo8 w, hi8 w]
  | .eorAbsx w => [0x5D, lo8 w, hi8 w]
  | .eorAbsy w => [0x59, lo8 w, hi8 w]
  | .eorIndx b => [0x41, b]
  | .eorIndy b => [0x51, b]
  | .incZp b => [0xE6, b]
  | .incZpx b => [0xF6, b]
  | .incAbs w => [0xEE, lo8 w, hi8 w]
  | .incAbsx w => [0xFE, lo8 w, hi8 w]
  | .inx => [0xE8]
  | .iny => [0xC8]
  | .jmpAbs w => [0x4C, lo8 w, hi8 w]
  | .jmpInd w => [0x6C, lo8 w, hi8 w]
  | .jsrAbs w => [0x20, lo8 w, hi8 w]
  | .ldaImm b => [0xA9, b]
  | .ldaZp b => [0xA5, b]
  | .ldaZpx b => [0xB5, b]
  | .ldaAbs w => [0xAD, lo8 w, hi8 w]
  | .ldaAbsx w => [0xBD, lo8 w, hi8 w]
  | .ldaAbsy w => [0xB9, lo8 w, hi8 w]
  | .ldaIndx b => [0xA1, b]
  | .ldaIndy b => [0xB1, b]
  | .ldxImm b => [0xA2, b]
  | .ldxZp b => [0xA6, b]
  | .ldxZpy b => [0xB6, b]
  | .ldxAbs w => [0xAE, lo8 w, hi8 w]
  | .ldxAbsy w => [0xBE, lo8 w, hi8 w]
  | .ldyImm b => [0xA0, b]
  | .ldyZp b => [0xA4, b]
  | .ldyZpx b => [0xB4, b]
  | .ldyAbs w => [0xAC, lo8 w, hi8 w]
  | .ldyAbsx w => [0xBC, lo8 w, hi8 w]
  | .lsrAcc => [0x4A]
  | .lsrZp b => [0x46, b]
  | .lsrZpx b => [0x56, b]
  | .lsrAbs w => [0x4E, lo8 w, hi8 w]
  | .lsrAbsx w => [0x5E, lo8 w, hi8 w]
  | .nop => [0xEA]
  | .oraImm b => [0x09, b]
  | .oraZp b => [0x05, b]
  | .oraZpx b => [0x15, b]
  | .oraAbs w => [0x0D, lo8 w, hi8 w]
  | .oraAbsx w => [0x1D, lo8 w, hi8 w]
  | .oraAbsy w => [0x19, lo8 w, hi8 w]
  | .oraIndx b => [0x01, b]
  | .oraIndy b => [0x11, b]
  | .pha => [0x48]
  | .php => [0x08]
  | .pla => [0x68]
  | .plp => [0x28]
  | .rolAcc => [0x2A]
  | .rolZp b => [0x26, b]
  | .rolZpx b => [0x36, b]
  | .rolAbs w => [0x2E, lo8 w, hi8 w]
  | .rolAbsx w => [0x3E, lo8 w, hi8 w]
  | .rorAcc => [0x6A]
  | .rorZp b => [0x66, b]
  | .rorZpx b => [0x76, b]
  | .rorAbs w => [0x6E, lo8 w, hi8 w]
  | .rorAbsx w => [0x7E, lo8 w, hi8 w]
  | .rti => [0x40]
  | .rts => [0x60]
  | .sbcImm b => [0xE9, b]
  | .sbcZp b => [0xE5, b]
  | .sbcZpx b => [0xF5, b]
  | .sbcAbs w => [0xED, lo8 w, hi8 w]
  | .sbcAbsx w => [0xFD, lo8 w, hi8 w]
  | .sbcAbsy w => [0xF9, lo8 w, hi8 w]
  | .sbcIndx b => [0xE1, b]
  | .sbcIndy b => [0xF1, b]
  | .sec => [0x38]
  | .sed => [0xF8]
  | .sei => [0x78]
  | .staZp b => [0x85, b]
  | .staZpx b => [0x95, b]
  | .staAbs w => [0x8D, lo8 w, hi8 w]
  | .staAbsx w => [0x9D, lo8 w, hi8 w]
  | .staAbsy w => [0x99, lo8 w, hi8 w]
  | .staIndx b => [0x81, b]
  | .staIndy b => [0x91, b]
  | .stxZp b => [0x86, b]
  | .stxZpy b => [0x96, b]
  | .stxAbs w => [0x8E, lo8 w, hi8 w]
  | .styZp b => [0x84, b]
  | .styZpx b => [0x94, b]
  | .styAbs w => [0x8C, lo8 w, hi8 w]
  | .tax => [0xAA]
  | .tay => [0xA8]
  | .tsx => [0xBA]
  | .txa => [0x8A]
  | .txs => [0x9A]
  | .tya => [0x98]

/-- An instruction whose bits are w, numbered as spec/opcode_table.json numbers them (bit 0 the least significant bit of the
first byte), as its three first bytes; the bits above `nbits` are 0. -/
def tableBytes (nbits w : Nat) : List Byte :=
  let v := w % 2 ^ nbits
  [BitVec.ofNat 8 v, BitVec.ofNat 8 (v / 256), BitVec.ofNat 8 (v / 65536)]

/-- The instruction the decoder reads from a table word. -/
def decodeTableWord (nbits w : Nat) : Option Instr :=
  match decode (tableBytes nbits w) with
  | .ok (i, _) => some i
  | .error _ => none

end Sys2Proof
end

