-- ==== Sys2Proof/Machine/Ops.lean ====
section
/-! DEFINITION. The named operations over registers, memory and the stack (20_memory.md; R42 to R48), and the software break: its entry and its return (R300, R301). -/

namespace Sys2Proof.Machine

/-! ### Memory as data: one canonical form -/

/-- What a bound address reads as when the memory lists no byte for it. The spec leaves such a byte unspecified; `load` takes
these bytes as an argument of the launch and lists them (R332; DESIGN CHOICE, log entry 2). -/
def Memory.unlisted : Byte := 0x00

/-- The byte at an address, bound or not. -/
def Memory.read : Memory → Nat → Byte
  | [], _ => Memory.unlisted
  | cell :: rest, addr => if cell.1 = addr then cell.2 else Memory.read rest addr

/-- The memory with one byte replaced, in canonical form again: a byte equal to `Memory.unlisted` is not listed. -/
def Memory.write : Memory → Nat → Byte → Memory
  | [], addr, v => if v = Memory.unlisted then [] else [(addr, v)]
  | cell :: rest, addr, v =>
    if addr < cell.1 then
      if v = Memory.unlisted then cell :: rest else (addr, v) :: cell :: rest
    else if addr = cell.1 then
      if v = Memory.unlisted then rest else (addr, v) :: rest
    else cell :: Memory.write rest addr v

/-- The canonical form from an address on: addresses strictly rising, no byte listed that an unlisted address reads as. -/
def Memory.wfFrom : Nat → Memory → Bool
  | _, [] => true
  | low, cell :: rest =>
    decide (low ≤ cell.1) && decide (cell.2 ≠ Memory.unlisted) && Memory.wfFrom (cell.1 + 1) rest

/-- The canonical form of a memory: equal contents are equal lists. -/
def Memory.wf (m : Memory) : Bool := Memory.wfFrom 0 m

/-! ### Registers -/

/-- The three general registers; an instruction names its register by its mnemonic or mode (R20). -/
inductive Reg where
  | a
  | x
  | y
deriving DecidableEq, Repr

def State.getReg (s : State) : Reg → Byte
  | .a => s.a
  | .x => s.x
  | .y => s.y

/-- Writing a register changes no flag by itself (10_state.md section 1). -/
def State.setReg (s : State) : Reg → Byte → State
  | .a, v => { s with a := v }
  | .x, v => { s with x := v }
  | .y, v => { s with y := v }

def State.setFlags (s : State) (f : Flags) : State := { s with flags := f }

/-- `pc <- target`, a control transfer (R29). -/
def State.setPc (s : State) (target : Word) : State := { s with pc := target }

/-- `SetZN(v)` on the machine's flags (R37). -/
def State.setZN (s : State) (v : Byte) : State := s.setFlags (s.flags.setZN v)

/-- The step's last action when the instruction did not write pc: `pc <- u16(pc + len)` (R27). -/
def State.advance (s : State) (len : Nat) : State := s.setPc (s.pc + BitVec.ofNat 16 len)

/-! ### The access primitives -/

/-- `MemRead(addr, 1)`: a fault at or above MEM_LEN, else the byte; it changes nothing (R62). -/
def memRead (s : State) (addr : Word) : Except Fault Byte :=
  if addr.toNat < s.memLen then .ok (s.mem.read addr.toNat)
  else .error (.outOfBoundsAccess addr.toNat)

/-- `MemWrite(addr, 1, v)`: a fault at or above MEM_LEN, else the byte is stored (R63). -/
def memWrite (s : State) (addr : Word) (v : Byte) : Except Fault State :=
  if addr.toNat < s.memLen then .ok { s with mem := s.mem.write addr.toNat v }
  else .error (.outOfBoundsAccess addr.toNat)

/-- `MemRead(addr, 2)`: low byte first, from the lower address; the second address is `u16(addr + 1)` (R67, R69). -/
def memRead16 (s : State) (addr : Word) : Except Fault Word := do
  let lo ← memRead s addr
  let hi ← memRead s (addr + 1)
  return wordOf hi lo

/-! ### The stack array -/

/-- `StackPush(v)`: a fault on a full stack, else `S[sp] <- v; sp <- sp + 1` (R46). -/
def stackPush (s : State) (v : Byte) : Except Fault State :=
  if s.sp < s.stackCapacity then .ok { s with stack := s.stack.set s.sp v, sp := s.sp + 1 }
  else .error (.stackFault .push)

/-- `StackPop()`: a fault on an empty stack, else `sp <- sp - 1` and the byte `S[sp]`; S is not changed (R47). An index
outside the array faults too (R45; only in states no run reaches, log entry 10). -/
def stackPop (s : State) : Except Fault (Byte × State) :=
  if s.sp = 0 then .error (.stackFault .pop)
  else match s.stack[s.sp - 1]? with
    | some v => .ok (v, { s with sp := s.sp - 1 })
    | none => .error (.stackFault .pop)

/-- A 16-bit push: high byte, then low byte (R48). -/
def stackPush16 (s : State) (w : Word) : Except Fault State := do
  let s₁ ← stackPush s (hi8 w)
  stackPush s₁ (lo8 w)

/-- A 16-bit pull: low byte, then high byte (R48). -/
def stackPop16 (s : State) : Except Fault (Word × State) := do
  let (lo, s₁) ← stackPop s
  let (hi, s₂) ← stackPop s₁
  return (wordOf hi lo, s₂)

/-! ### The software break -/

/-- Trap entry (R243, R300): push `pc + 2` and the packed status with B set, set I, load pc from BRK_VECTOR. `s.pc` is the
address of the BRK opcode (R24). The vector is read after the three pushes (R295: a stack fault comes first). -/
def takeBreak (s : State) : Except Fault State := do
  let s₁ ← stackPush16 s (s.pc + 2)
  let s₂ := s₁.setFlags { s₁.flags with b := true }
  let s₃ ← stackPush s₂ s₂.flags.pack
  let s₄ := s₃.setFlags { s₃.flags with i := true }
  let target ← memRead16 s₄ Config.brkVector
  return s₄.setPc target

/-- Trap return (R244, R301): pull the status into all seven flags, then the two address bytes into pc; nothing is added. -/
def returnFromBreak (s : State) : Except Fault State := do
  let (p, s₁) ← stackPop s
  let s₂ := s₁.setFlags (Flags.unpack p)
  let (target, s₃) ← stackPop16 s₂
  return s₃.setPc target

/-! ### The end of an instruction -/

/-- A raised fault discards every write of the step (R294): the outcome carries no state. -/
def finish : Except Fault State → Result
  | .ok s => .next s
  | .error f => .fault f

end Sys2Proof.Machine
end

