-- ==== Sys2Proof/Machine/Operands.lean ====
section
/-! DEFINITION. addressing_mode_resolver: every operand form the table uses, and its accessor (R94 to R107). Resolution comes before execution and writes nothing. The accessor shapes of R94 are typed by what they offer: `Source` has `get()` (Imm, Mem), `Place` has `get()` and `set(v)` (RegA, Mem), the jump and branch targets have `target` (log entry 12). -/

namespace Sys2Proof.Machine

/-- The eight modes whose accessor is `Mem(ea)`, with their operand byte or word (R94). -/
inductive MemMode where
  | zeroPage (b : Byte)
  | zeroPageX (b : Byte)
  | zeroPageY (b : Byte)
  | absolute (w : Word)
  | absoluteX (w : Word)
  | absoluteY (w : Word)
  | indirectX (b : Byte)
  | indirectY (b : Byte)
deriving DecidableEq, Repr

/-- An operand that is read: Immediate or memory (R97, R94). -/
inductive Source where
  | imm (b : Byte)
  | mem (m : MemMode)
deriving DecidableEq, Repr

/-- An operand that is read and written back: the accumulator or memory (R96, R94). -/
inductive Place where
  | acc
  | mem (m : MemMode)
deriving DecidableEq, Repr

/-- A byte as a word: zero-extended (00_scope.md section 5). -/
def zext16 (b : Byte) : Word := b.setWidth 16

/-- A displacement as a word: sign-extended, -128..127 (00_scope.md section 5, R107). -/
def sext16 (b : Byte) : Word := b.signExtend 16

/-- The 16-bit pointer stored in the zero page at z; both bytes come from the zero page (R105, R106). -/
def zeroPagePointer (s : State) (z : Byte) : Except Fault Word := do
  let lo ← memRead s (zext16 z)
  let hi ← memRead s (zext16 (z + 1))
  return wordOf hi lo

/-- The effective address of a memory mode (R98 to R103, R105, R106). Only the two indirect modes read memory here. -/
def effectiveAddress (s : State) : MemMode → Except Fault Word
  | .zeroPage b => .ok (zext16 b)
  | .zeroPageX b => .ok (zext16 (b + s.x))
  | .zeroPageY b => .ok (zext16 (b + s.y))
  | .absolute w => .ok w
  | .absoluteX w => .ok (w + zext16 s.x)
  | .absoluteY w => .ok (w + zext16 s.y)
  | .indirectX b => zeroPagePointer s (b + s.x)
  | .indirectY b => do
    let p ← zeroPagePointer s b
    return p + zext16 s.y

/-- The addressing mode of a memory form. -/
def MemMode.mode : MemMode → Mode
  | .zeroPage _ => .zeroPage
  | .zeroPageX _ => .zeroPageX
  | .zeroPageY _ => .zeroPageY
  | .absolute _ => .absolute
  | .absoluteX _ => .absoluteX
  | .absoluteY _ => .absoluteY
  | .indirectX _ => .indirectX
  | .indirectY _ => .indirectY

/-- Instruction length in a memory mode (R92). -/
def MemMode.length (m : MemMode) : Nat := m.mode.length

/-- Instruction length with a read operand (R92). -/
def Source.length : Source → Nat
  | .imm _ => Mode.immediate.length
  | .mem m => m.length

/-- Instruction length with a read-modify-write operand (R92). -/
def Place.length : Place → Nat
  | .acc => Mode.accumulator.length
  | .mem m => m.length

/-- Resolution and `get()` of a read operand: an immediate as it stands, else one read at the effective address (R94, R97). -/
def Source.get (s : State) : Source → Except Fault Byte
  | .imm b => .ok b
  | .mem m => do
    let ea ← effectiveAddress s m
    memRead s ea

/-- The target of a JMP in Indirect mode: the word stored at w, no page-boundary exception (R104). -/
def indirectTarget (s : State) (w : Word) : Except Fault Word := memRead16 s w

/-- The target of a branch: `u16(pc + 2 + sext_8(b))` (R107). -/
def relativeTarget (s : State) (b : Byte) : Word :=
  s.pc + BitVec.ofNat 16 Mode.relative.length + sext16 b

/-! ### The four ways an instruction uses its operand (R70, R109) -/

/-- A reading instruction: `get()`, then its effect, then the advance (R26, R27). -/
def readThen (src : Source) (s : State) (effect : Byte → State) : Result :=
  finish do
    let v ← src.get s
    return (effect v).advance src.length

/-- A storing instruction: `set(v)` at the effective address; the target is not read (R70). -/
def storeByte (m : MemMode) (v : Byte) (s : State) : Result :=
  finish do
    let ea ← effectiveAddress s m
    let t ← memWrite s ea v
    return t.advance m.length

/-- A read-modify-write instruction: `get()`, then `set` of the new byte in the same place, then the new flags (R70). `f`
gives the new byte and the new flags from the old byte. -/
def modifyThen (p : Place) (s : State) (f : Byte → Byte × Flags) : Result :=
  match p with
  | .acc => .next (((s.setReg .a (f s.a).1).setFlags (f s.a).2).advance p.length)
  | .mem m =>
    finish do
      let ea ← effectiveAddress s m
      let v ← memRead s ea
      let t ← memWrite s ea (f v).1
      return (t.setFlags (f v).2).advance p.length

/-- An Implied-mode instruction that cannot fault and does not write pc: its effect, then the advance by 1 (R95, R27). -/
def impliedThen (t : State) : Result := .next (t.advance Mode.implied.length)

end Sys2Proof.Machine
end

