-- ==== Sys2Proof/Machine/Arith.lean ====
section
/-! DEFINITION. Arithmetic, logical and compare instructions (41_arith_logic_compare.md, R160 to R182). Binary always: D is not read (R36). -/

namespace Sys2Proof.Machine

/-- ADC on any operand: `(r, c, v) <- AddWithCarry(A, m, P.C)` (R170). -/
def addCarry (src : Source) (s : State) : Result :=
  readThen src s fun m =>
    let out := addWithCarry s.a m s.flags.c
    (s.setReg .a out.r).setFlags (s.flags.setArith out)

/-- SBC on any operand: `(r, c, v) <- SubWithBorrow(A, m, P.C)` (R171). -/
def subCarry (src : Source) (s : State) : Result :=
  readThen src s fun m =>
    let out := subWithBorrow s.a m s.flags.c
    (s.setReg .a out.r).setFlags (s.flags.setArith out)

/-- AND on any operand (R163, R175). -/
def logicAnd (src : Source) (s : State) : Result :=
  readThen src s fun m => (s.setReg .a (s.a &&& m)).setZN (s.a &&& m)

/-- ORA on any operand (R163, R176). -/
def logicOr (src : Source) (s : State) : Result :=
  readThen src s fun m => (s.setReg .a (s.a ||| m)).setZN (s.a ||| m)

/-- EOR on any operand (R163, R177). -/
def logicXor (src : Source) (s : State) : Result :=
  readThen src s fun m => (s.setReg .a (s.a ^^^ m)).setZN (s.a ^^^ m)

/-- BIT on any operand: flags only (R178). -/
def bitTest (src : Source) (s : State) : Result :=
  readThen src s fun m => s.setFlags (s.flags.setBit s.a m)

/-- A compare on any operand: N, Z and C only; the register is not altered (R180 to R182). -/
def compareReg (r : Reg) (src : Source) (s : State) : Result :=
  readThen src s fun m => s.setFlags (s.flags.setCompare (s.getReg r) m)

/-- ADC, add with carry, Immediate: 0x69 (R170). -/
def execAdcImm (b : Byte) (s : State) : Result :=
  addCarry (.imm b) s

/-- ADC, add with carry, ZeroPage: 0x65 (R170). -/
def execAdcZp (b : Byte) (s : State) : Result :=
  addCarry (.mem (.zeroPage b)) s

/-- ADC, add with carry, ZeroPageX: 0x75 (R170). -/
def execAdcZpx (b : Byte) (s : State) : Result :=
  addCarry (.mem (.zeroPageX b)) s

/-- ADC, add with carry, Absolute: 0x6D (R170). -/
def execAdcAbs (w : Word) (s : State) : Result :=
  addCarry (.mem (.absolute w)) s

/-- ADC, add with carry, AbsoluteX: 0x7D (R170). -/
def execAdcAbsx (w : Word) (s : State) : Result :=
  addCarry (.mem (.absoluteX w)) s

/-- ADC, add with carry, AbsoluteY: 0x79 (R170). -/
def execAdcAbsy (w : Word) (s : State) : Result :=
  addCarry (.mem (.absoluteY w)) s

/-- ADC, add with carry, IndirectX: 0x61 (R170). -/
def execAdcIndx (b : Byte) (s : State) : Result :=
  addCarry (.mem (.indirectX b)) s

/-- ADC, add with carry, IndirectY: 0x71 (R170). -/
def execAdcIndy (b : Byte) (s : State) : Result :=
  addCarry (.mem (.indirectY b)) s

/-- SBC, subtract with borrow, Immediate: 0xE9 (R171). -/
def execSbcImm (b : Byte) (s : State) : Result :=
  subCarry (.imm b) s

/-- SBC, subtract with borrow, ZeroPage: 0xE5 (R171). -/
def execSbcZp (b : Byte) (s : State) : Result :=
  subCarry (.mem (.zeroPage b)) s

/-- SBC, subtract with borrow, ZeroPageX: 0xF5 (R171). -/
def execSbcZpx (b : Byte) (s : State) : Result :=
  subCarry (.mem (.zeroPageX b)) s

/-- SBC, subtract with borrow, Absolute: 0xED (R171). -/
def execSbcAbs (w : Word) (s : State) : Result :=
  subCarry (.mem (.absolute w)) s

/-- SBC, subtract with borrow, AbsoluteX: 0xFD (R171). -/
def execSbcAbsx (w : Word) (s : State) : Result :=
  subCarry (.mem (.absoluteX w)) s

/-- SBC, subtract with borrow, AbsoluteY: 0xF9 (R171). -/
def execSbcAbsy (w : Word) (s : State) : Result :=
  subCarry (.mem (.absoluteY w)) s

/-- SBC, subtract with borrow, IndirectX: 0xE1 (R171). -/
def execSbcIndx (b : Byte) (s : State) : Result :=
  subCarry (.mem (.indirectX b)) s

/-- SBC, subtract with borrow, IndirectY: 0xF1 (R171). -/
def execSbcIndy (b : Byte) (s : State) : Result :=
  subCarry (.mem (.indirectY b)) s

/-- AND, bitwise and, Immediate: 0x29 (R175). -/
def execAndImm (b : Byte) (s : State) : Result :=
  logicAnd (.imm b) s

/-- AND, bitwise and, ZeroPage: 0x25 (R175). -/
def execAndZp (b : Byte) (s : State) : Result :=
  logicAnd (.mem (.zeroPage b)) s

/-- AND, bitwise and, ZeroPageX: 0x35 (R175). -/
def execAndZpx (b : Byte) (s : State) : Result :=
  logicAnd (.mem (.zeroPageX b)) s

/-- AND, bitwise and, Absolute: 0x2D (R175). -/
def execAndAbs (w : Word) (s : State) : Result :=
  logicAnd (.mem (.absolute w)) s

/-- AND, bitwise and, AbsoluteX: 0x3D (R175). -/
def execAndAbsx (w : Word) (s : State) : Result :=
  logicAnd (.mem (.absoluteX w)) s

/-- AND, bitwise and, AbsoluteY: 0x39 (R175). -/
def execAndAbsy (w : Word) (s : State) : Result :=
  logicAnd (.mem (.absoluteY w)) s

/-- AND, bitwise and, IndirectX: 0x21 (R175). -/
def execAndIndx (b : Byte) (s : State) : Result :=
  logicAnd (.mem (.indirectX b)) s

/-- AND, bitwise and, IndirectY: 0x31 (R175). -/
def execAndIndy (b : Byte) (s : State) : Result :=
  logicAnd (.mem (.indirectY b)) s

/-- ORA, bitwise or, Immediate: 0x09 (R176). -/
def execOraImm (b : Byte) (s : State) : Result :=
  logicOr (.imm b) s

/-- ORA, bitwise or, ZeroPage: 0x05 (R176). -/
def execOraZp (b : Byte) (s : State) : Result :=
  logicOr (.mem (.zeroPage b)) s

/-- ORA, bitwise or, ZeroPageX: 0x15 (R176). -/
def execOraZpx (b : Byte) (s : State) : Result :=
  logicOr (.mem (.zeroPageX b)) s

/-- ORA, bitwise or, Absolute: 0x0D (R176). -/
def execOraAbs (w : Word) (s : State) : Result :=
  logicOr (.mem (.absolute w)) s

/-- ORA, bitwise or, AbsoluteX: 0x1D (R176). -/
def execOraAbsx (w : Word) (s : State) : Result :=
  logicOr (.mem (.absoluteX w)) s

/-- ORA, bitwise or, AbsoluteY: 0x19 (R176). -/
def execOraAbsy (w : Word) (s : State) : Result :=
  logicOr (.mem (.absoluteY w)) s

/-- ORA, bitwise or, IndirectX: 0x01 (R176). -/
def execOraIndx (b : Byte) (s : State) : Result :=
  logicOr (.mem (.indirectX b)) s

/-- ORA, bitwise or, IndirectY: 0x11 (R176). -/
def execOraIndy (b : Byte) (s : State) : Result :=
  logicOr (.mem (.indirectY b)) s

/-- EOR, bitwise exclusive or, Immediate: 0x49 (R177). -/
def execEorImm (b : Byte) (s : State) : Result :=
  logicXor (.imm b) s

/-- EOR, bitwise exclusive or, ZeroPage: 0x45 (R177). -/
def execEorZp (b : Byte) (s : State) : Result :=
  logicXor (.mem (.zeroPage b)) s

/-- EOR, bitwise exclusive or, ZeroPageX: 0x55 (R177). -/
def execEorZpx (b : Byte) (s : State) : Result :=
  logicXor (.mem (.zeroPageX b)) s

/-- EOR, bitwise exclusive or, Absolute: 0x4D (R177). -/
def execEorAbs (w : Word) (s : State) : Result :=
  logicXor (.mem (.absolute w)) s

/-- EOR, bitwise exclusive or, AbsoluteX: 0x5D (R177). -/
def execEorAbsx (w : Word) (s : State) : Result :=
  logicXor (.mem (.absoluteX w)) s

/-- EOR, bitwise exclusive or, AbsoluteY: 0x59 (R177). -/
def execEorAbsy (w : Word) (s : State) : Result :=
  logicXor (.mem (.absoluteY w)) s

/-- EOR, bitwise exclusive or, IndirectX: 0x41 (R177). -/
def execEorIndx (b : Byte) (s : State) : Result :=
  logicXor (.mem (.indirectX b)) s

/-- EOR, bitwise exclusive or, IndirectY: 0x51 (R177). -/
def execEorIndy (b : Byte) (s : State) : Result :=
  logicXor (.mem (.indirectY b)) s

/-- BIT, bit test, ZeroPage: 0x24 (R178). A is not written. -/
def execBitZp (b : Byte) (s : State) : Result :=
  bitTest (.mem (.zeroPage b)) s

/-- BIT, bit test, Absolute: 0x2C (R178). A is not written. -/
def execBitAbs (w : Word) (s : State) : Result :=
  bitTest (.mem (.absolute w)) s

/-- CMP, compare accumulator, Immediate: 0xC9 (R180). -/
def execCmpImm (b : Byte) (s : State) : Result :=
  compareReg .a (.imm b) s

/-- CMP, compare accumulator, ZeroPage: 0xC5 (R180). -/
def execCmpZp (b : Byte) (s : State) : Result :=
  compareReg .a (.mem (.zeroPage b)) s

/-- CMP, compare accumulator, ZeroPageX: 0xD5 (R180). -/
def execCmpZpx (b : Byte) (s : State) : Result :=
  compareReg .a (.mem (.zeroPageX b)) s

/-- CMP, compare accumulator, Absolute: 0xCD (R180). -/
def execCmpAbs (w : Word) (s : State) : Result :=
  compareReg .a (.mem (.absolute w)) s

/-- CMP, compare accumulator, AbsoluteX: 0xDD (R180). -/
def execCmpAbsx (w : Word) (s : State) : Result :=
  compareReg .a (.mem (.absoluteX w)) s

/-- CMP, compare accumulator, AbsoluteY: 0xD9 (R180). -/
def execCmpAbsy (w : Word) (s : State) : Result :=
  compareReg .a (.mem (.absoluteY w)) s

/-- CMP, compare accumulator, IndirectX: 0xC1 (R180). -/
def execCmpIndx (b : Byte) (s : State) : Result :=
  compareReg .a (.mem (.indirectX b)) s

/-- CMP, compare accumulator, IndirectY: 0xD1 (R180). -/
def execCmpIndy (b : Byte) (s : State) : Result :=
  compareReg .a (.mem (.indirectY b)) s

/-- CPX, compare X, Immediate: 0xE0 (R181). -/
def execCpxImm (b : Byte) (s : State) : Result :=
  compareReg .x (.imm b) s

/-- CPX, compare X, ZeroPage: 0xE4 (R181). -/
def execCpxZp (b : Byte) (s : State) : Result :=
  compareReg .x (.mem (.zeroPage b)) s

/-- CPX, compare X, Absolute: 0xEC (R181). -/
def execCpxAbs (w : Word) (s : State) : Result :=
  compareReg .x (.mem (.absolute w)) s

/-- CPY, compare Y, Immediate: 0xC0 (R182). -/
def execCpyImm (b : Byte) (s : State) : Result :=
  compareReg .y (.imm b) s

/-- CPY, compare Y, ZeroPage: 0xC4 (R182). -/
def execCpyZp (b : Byte) (s : State) : Result :=
  compareReg .y (.mem (.zeroPage b)) s

/-- CPY, compare Y, Absolute: 0xCC (R182). -/
def execCpyAbs (w : Word) (s : State) : Result :=
  compareReg .y (.mem (.absolute w)) s

end Sys2Proof.Machine
end

