-- ==== Sys2Proof/Machine/Control.lean ====
section
/-! DEFINITION. Branches, jumps, calls, returns and the software break (43_control_transfer.md, R220 to R244). These alone write pc themselves; a target is never checked when it is written. -/

namespace Sys2Proof.Machine

/-- The common rule of the eight branches: taken, pc is the target; not taken, pc advances by 2 (R220). -/
def branch (cond : Bool) (b : Byte) (s : State) : Result :=
  if cond then .next (s.setPc (relativeTarget s b))
  else .next (s.advance Mode.relative.length)

/-- JMP in Absolute mode: the operand word is the target; no memory is read there (R101, R240). -/
def jumpTo (w : Word) (s : State) : Result := .next (s.setPc w)

/-- BCC, branch if carry clear, Relative: 0x90 (R221). -/
def execBcc (b : Byte) (s : State) : Result :=
  branch (!s.flags.c) b s

/-- BCS, branch if carry set, Relative: 0xB0 (R222). -/
def execBcs (b : Byte) (s : State) : Result :=
  branch s.flags.c b s

/-- BEQ, branch if equal (zero set), Relative: 0xF0 (R223). -/
def execBeq (b : Byte) (s : State) : Result :=
  branch s.flags.z b s

/-- BNE, branch if not equal (zero clear), Relative: 0xD0 (R224). -/
def execBne (b : Byte) (s : State) : Result :=
  branch (!s.flags.z) b s

/-- BPL, branch if plus (negative clear), Relative: 0x10 (R225). -/
def execBpl (b : Byte) (s : State) : Result :=
  branch (!s.flags.n) b s

/-- BMI, branch if minus (negative set), Relative: 0x30 (R226). -/
def execBmi (b : Byte) (s : State) : Result :=
  branch s.flags.n b s

/-- BVC, branch if overflow clear, Relative: 0x50 (R227). -/
def execBvc (b : Byte) (s : State) : Result :=
  branch (!s.flags.v) b s

/-- BVS, branch if overflow set, Relative: 0x70 (R228). -/
def execBvs (b : Byte) (s : State) : Result :=
  branch s.flags.v b s

/-- JMP, jump, Absolute: 0x4C (R240). -/
def execJmpAbs (w : Word) (s : State) : Result :=
  jumpTo w s

/-- JMP, jump, Indirect: 0x6C (R240). -/
def execJmpInd (w : Word) (s : State) : Result :=
  finish do
    let target ← indirectTarget s w
    return s.setPc target

/-- JSR, jump to subroutine, Absolute: 0x20 (R241). Pushes `pc + 2`, high byte first; the target is the operand word itself. -/
def execJsrAbs (w : Word) (s : State) : Result :=
  finish do
    let t ← stackPush16 s (s.pc + 2)
    return t.setPc w

/-- RTS, return from subroutine, Implied: 0x60 (R242). Pulls low, then high, and adds 1. -/
def execRts (s : State) : Result :=
  finish do
    let (ret, t) ← stackPop16 s
    return t.setPc (ret + 1)

/-- BRK, software break, Implied: 0x00 (R243). The software break: an ordinary next state. -/
def execBrk (s : State) : Result :=
  finish (takeBreak s)

/-- RTI, return from interrupt, Implied: 0x40 (R244). Nothing is added to the pulled address. -/
def execRti (s : State) : Result :=
  finish (returnFromBreak s)

end Sys2Proof.Machine
end

