-- ==== Sys2Proof/Machine/LoadStore.lean ====
section
/-! DEFINITION. Load, store and transfer instructions (40_load_store_transfer.md, R130 to R157). -/

namespace Sys2Proof.Machine

/-- A load: `v <- get(); r <- v; SetZN(v)` (R131 to R133). -/
def loadReg (r : Reg) (src : Source) (s : State) : Result :=
  readThen src s fun v => (s.setReg r v).setZN v

/-- A store: `set(r)`; no flag (R140 to R142). -/
def storeReg (r : Reg) (m : MemMode) (s : State) : Result :=
  storeByte m (s.getReg r) s

/-- A register transfer: `to <- from; SetZN(to)` (R150 to R153). -/
def transferReg (source target : Reg) (s : State) : Result :=
  impliedThen ((s.setReg target (s.getReg source)).setZN (s.getReg source))

/-- LDA, load accumulator, Immediate: 0xA9 (R131). -/
def execLdaImm (b : Byte) (s : State) : Result :=
  loadReg .a (.imm b) s

/-- LDA, load accumulator, ZeroPage: 0xA5 (R131). -/
def execLdaZp (b : Byte) (s : State) : Result :=
  loadReg .a (.mem (.zeroPage b)) s

/-- LDA, load accumulator, ZeroPageX: 0xB5 (R131). -/
def execLdaZpx (b : Byte) (s : State) : Result :=
  loadReg .a (.mem (.zeroPageX b)) s

/-- LDA, load accumulator, Absolute: 0xAD (R131). -/
def execLdaAbs (w : Word) (s : State) : Result :=
  loadReg .a (.mem (.absolute w)) s

/-- LDA, load accumulator, AbsoluteX: 0xBD (R131). -/
def execLdaAbsx (w : Word) (s : State) : Result :=
  loadReg .a (.mem (.absoluteX w)) s

/-- LDA, load accumulator, AbsoluteY: 0xB9 (R131). -/
def execLdaAbsy (w : Word) (s : State) : Result :=
  loadReg .a (.mem (.absoluteY w)) s

/-- LDA, load accumulator, IndirectX: 0xA1 (R131). -/
def execLdaIndx (b : Byte) (s : State) : Result :=
  loadReg .a (.mem (.indirectX b)) s

/-- LDA, load accumulator, IndirectY: 0xB1 (R131). -/
def execLdaIndy (b : Byte) (s : State) : Result :=
  loadReg .a (.mem (.indirectY b)) s

/-- LDX, load index X, Immediate: 0xA2 (R132). -/
def execLdxImm (b : Byte) (s : State) : Result :=
  loadReg .x (.imm b) s

/-- LDX, load index X, ZeroPage: 0xA6 (R132). -/
def execLdxZp (b : Byte) (s : State) : Result :=
  loadReg .x (.mem (.zeroPage b)) s

/-- LDX, load index X, ZeroPageY: 0xB6 (R132). -/
def execLdxZpy (b : Byte) (s : State) : Result :=
  loadReg .x (.mem (.zeroPageY b)) s

/-- LDX, load index X, Absolute: 0xAE (R132). -/
def execLdxAbs (w : Word) (s : State) : Result :=
  loadReg .x (.mem (.absolute w)) s

/-- LDX, load index X, AbsoluteY: 0xBE (R132). -/
def execLdxAbsy (w : Word) (s : State) : Result :=
  loadReg .x (.mem (.absoluteY w)) s

/-- LDY, load index Y, Immediate: 0xA0 (R133). -/
def execLdyImm (b : Byte) (s : State) : Result :=
  loadReg .y (.imm b) s

/-- LDY, load index Y, ZeroPage: 0xA4 (R133). -/
def execLdyZp (b : Byte) (s : State) : Result :=
  loadReg .y (.mem (.zeroPage b)) s

/-- LDY, load index Y, ZeroPageX: 0xB4 (R133). -/
def execLdyZpx (b : Byte) (s : State) : Result :=
  loadReg .y (.mem (.zeroPageX b)) s

/-- LDY, load index Y, Absolute: 0xAC (R133). -/
def execLdyAbs (w : Word) (s : State) : Result :=
  loadReg .y (.mem (.absolute w)) s

/-- LDY, load index Y, AbsoluteX: 0xBC (R133). -/
def execLdyAbsx (w : Word) (s : State) : Result :=
  loadReg .y (.mem (.absoluteX w)) s

/-- STA, store accumulator, ZeroPage: 0x85 (R140). -/
def execStaZp (b : Byte) (s : State) : Result :=
  storeReg .a (.zeroPage b) s

/-- STA, store accumulator, ZeroPageX: 0x95 (R140). -/
def execStaZpx (b : Byte) (s : State) : Result :=
  storeReg .a (.zeroPageX b) s

/-- STA, store accumulator, Absolute: 0x8D (R140). -/
def execStaAbs (w : Word) (s : State) : Result :=
  storeReg .a (.absolute w) s

/-- STA, store accumulator, AbsoluteX: 0x9D (R140). -/
def execStaAbsx (w : Word) (s : State) : Result :=
  storeReg .a (.absoluteX w) s

/-- STA, store accumulator, AbsoluteY: 0x99 (R140). -/
def execStaAbsy (w : Word) (s : State) : Result :=
  storeReg .a (.absoluteY w) s

/-- STA, store accumulator, IndirectX: 0x81 (R140). -/
def execStaIndx (b : Byte) (s : State) : Result :=
  storeReg .a (.indirectX b) s

/-- STA, store accumulator, IndirectY: 0x91 (R140). -/
def execStaIndy (b : Byte) (s : State) : Result :=
  storeReg .a (.indirectY b) s

/-- STX, store index X, ZeroPage: 0x86 (R141). -/
def execStxZp (b : Byte) (s : State) : Result :=
  storeReg .x (.zeroPage b) s

/-- STX, store index X, ZeroPageY: 0x96 (R141). -/
def execStxZpy (b : Byte) (s : State) : Result :=
  storeReg .x (.zeroPageY b) s

/-- STX, store index X, Absolute: 0x8E (R141). -/
def execStxAbs (w : Word) (s : State) : Result :=
  storeReg .x (.absolute w) s

/-- STY, store index Y, ZeroPage: 0x84 (R142). -/
def execStyZp (b : Byte) (s : State) : Result :=
  storeReg .y (.zeroPage b) s

/-- STY, store index Y, ZeroPageX: 0x94 (R142). -/
def execStyZpx (b : Byte) (s : State) : Result :=
  storeReg .y (.zeroPageX b) s

/-- STY, store index Y, Absolute: 0x8C (R142). -/
def execStyAbs (w : Word) (s : State) : Result :=
  storeReg .y (.absolute w) s

/-- TAX, transfer A to X, Implied: 0xAA (R150). -/
def execTax (s : State) : Result :=
  transferReg .a .x s

/-- TAY, transfer A to Y, Implied: 0xA8 (R151). -/
def execTay (s : State) : Result :=
  transferReg .a .y s

/-- TXA, transfer X to A, Implied: 0x8A (R152). -/
def execTxa (s : State) : Result :=
  transferReg .x .a s

/-- TYA, transfer Y to A, Implied: 0x98 (R153). -/
def execTya (s : State) : Result :=
  transferReg .y .a s

/-- TSX, transfer stack pointer to X, Implied: 0xBA (R156). X gets the count of entries, reduced to a byte. -/
def execTsx (s : State) : Result :=
  impliedThen ((s.setReg .x (BitVec.ofNat 8 s.sp)).setZN (BitVec.ofNat 8 s.sp))

/-- TXS, transfer X to stack pointer, Implied: 0x9A (R157). No flag; X above STACK_CAPACITY faults. -/
def execTxs (s : State) : Result :=
  if s.stackCapacity < s.x.toNat then .fault (.stackFault .txs)
  else impliedThen { s with sp := s.x.toNat }

end Sys2Proof.Machine
end

