-- ==== Sys2Proof/Machine/Shift.lean ====
section
/-! DEFINITION. Shift, rotate, increment and decrement instructions (42_shift_incdec.md, R200 to R215). -/

namespace Sys2Proof.Machine

/-- A shift or rotate: `v <- get(); (r, c) <- f(v, P.C); set(r); P.C <- c; SetZN(r)`, in the accumulator or in memory
(R200 to R203). The old carry is read before the new one is written. -/
def shiftOp (f : Byte → Bool → Byte × Bool) (p : Place) (s : State) : Result :=
  modifyThen p s fun v =>
    let out := f v s.flags.c
    (out.1, Flags.setZN { s.flags with c := out.2 } out.1)

/-- INC or DEC of a memory byte: `v <- get(); r <- f(v); set(r); SetZN(r)` (R210, R211). -/
def stepMem (f : Byte → Byte) (m : MemMode) (s : State) : Result :=
  modifyThen (.mem m) s fun v => (f v, s.flags.setZN (f v))

/-- INX, INY, DEX, DEY: `r <- f(r); SetZN(r)` (R212 to R215). -/
def stepReg (f : Byte → Byte) (r : Reg) (s : State) : Result :=
  impliedThen ((s.setReg r (f (s.getReg r))).setZN (f (s.getReg r)))

/-- ASL, arithmetic shift left, Accumulator: 0x0A (R200). -/
def execAslAcc (s : State) : Result :=
  shiftOp shiftLeft .acc s

/-- ASL, arithmetic shift left, ZeroPage: 0x06 (R200). -/
def execAslZp (b : Byte) (s : State) : Result :=
  shiftOp shiftLeft (.mem (.zeroPage b)) s

/-- ASL, arithmetic shift left, ZeroPageX: 0x16 (R200). -/
def execAslZpx (b : Byte) (s : State) : Result :=
  shiftOp shiftLeft (.mem (.zeroPageX b)) s

/-- ASL, arithmetic shift left, Absolute: 0x0E (R200). -/
def execAslAbs (w : Word) (s : State) : Result :=
  shiftOp shiftLeft (.mem (.absolute w)) s

/-- ASL, arithmetic shift left, AbsoluteX: 0x1E (R200). -/
def execAslAbsx (w : Word) (s : State) : Result :=
  shiftOp shiftLeft (.mem (.absoluteX w)) s

/-- LSR, logical shift right, Accumulator: 0x4A (R201). -/
def execLsrAcc (s : State) : Result :=
  shiftOp shiftRight .acc s

/-- LSR, logical shift right, ZeroPage: 0x46 (R201). -/
def execLsrZp (b : Byte) (s : State) : Result :=
  shiftOp shiftRight (.mem (.zeroPage b)) s

/-- LSR, logical shift right, ZeroPageX: 0x56 (R201). -/
def execLsrZpx (b : Byte) (s : State) : Result :=
  shiftOp shiftRight (.mem (.zeroPageX b)) s

/-- LSR, logical shift right, Absolute: 0x4E (R201). -/
def execLsrAbs (w : Word) (s : State) : Result :=
  shiftOp shiftRight (.mem (.absolute w)) s

/-- LSR, logical shift right, AbsoluteX: 0x5E (R201). -/
def execLsrAbsx (w : Word) (s : State) : Result :=
  shiftOp shiftRight (.mem (.absoluteX w)) s

/-- ROL, rotate left through carry, Accumulator: 0x2A (R202). -/
def execRolAcc (s : State) : Result :=
  shiftOp rotateLeft .acc s

/-- ROL, rotate left through carry, ZeroPage: 0x26 (R202). -/
def execRolZp (b : Byte) (s : State) : Result :=
  shiftOp rotateLeft (.mem (.zeroPage b)) s

/-- ROL, rotate left through carry, ZeroPageX: 0x36 (R202). -/
def execRolZpx (b : Byte) (s : State) : Result :=
  shiftOp rotateLeft (.mem (.zeroPageX b)) s

/-- ROL, rotate left through carry, Absolute: 0x2E (R202). -/
def execRolAbs (w : Word) (s : State) : Result :=
  shiftOp rotateLeft (.mem (.absolute w)) s

/-- ROL, rotate left through carry, AbsoluteX: 0x3E (R202). -/
def execRolAbsx (w : Word) (s : State) : Result :=
  shiftOp rotateLeft (.mem (.absoluteX w)) s

/-- ROR, rotate right through carry, Accumulator: 0x6A (R203). -/
def execRorAcc (s : State) : Result :=
  shiftOp rotateRight .acc s

/-- ROR, rotate right through carry, ZeroPage: 0x66 (R203). -/
def execRorZp (b : Byte) (s : State) : Result :=
  shiftOp rotateRight (.mem (.zeroPage b)) s

/-- ROR, rotate right through carry, ZeroPageX: 0x76 (R203). -/
def execRorZpx (b : Byte) (s : State) : Result :=
  shiftOp rotateRight (.mem (.zeroPageX b)) s

/-- ROR, rotate right through carry, Absolute: 0x6E (R203). -/
def execRorAbs (w : Word) (s : State) : Result :=
  shiftOp rotateRight (.mem (.absolute w)) s

/-- ROR, rotate right through carry, AbsoluteX: 0x7E (R203). -/
def execRorAbsx (w : Word) (s : State) : Result :=
  shiftOp rotateRight (.mem (.absoluteX w)) s

/-- INC, increment memory, ZeroPage: 0xE6 (R210). -/
def execIncZp (b : Byte) (s : State) : Result :=
  stepMem incByte (.zeroPage b) s

/-- INC, increment memory, ZeroPageX: 0xF6 (R210). -/
def execIncZpx (b : Byte) (s : State) : Result :=
  stepMem incByte (.zeroPageX b) s

/-- INC, increment memory, Absolute: 0xEE (R210). -/
def execIncAbs (w : Word) (s : State) : Result :=
  stepMem incByte (.absolute w) s

/-- INC, increment memory, AbsoluteX: 0xFE (R210). -/
def execIncAbsx (w : Word) (s : State) : Result :=
  stepMem incByte (.absoluteX w) s

/-- DEC, decrement memory, ZeroPage: 0xC6 (R211). -/
def execDecZp (b : Byte) (s : State) : Result :=
  stepMem decByte (.zeroPage b) s

/-- DEC, decrement memory, ZeroPageX: 0xD6 (R211). -/
def execDecZpx (b : Byte) (s : State) : Result :=
  stepMem decByte (.zeroPageX b) s

/-- DEC, decrement memory, Absolute: 0xCE (R211). -/
def execDecAbs (w : Word) (s : State) : Result :=
  stepMem decByte (.absolute w) s

/-- DEC, decrement memory, AbsoluteX: 0xDE (R211). -/
def execDecAbsx (w : Word) (s : State) : Result :=
  stepMem decByte (.absoluteX w) s

/-- INX, increment X, Implied: 0xE8 (R212). -/
def execInx (s : State) : Result :=
  stepReg incByte .x s

/-- INY, increment Y, Implied: 0xC8 (R213). -/
def execIny (s : State) : Result :=
  stepReg incByte .y s

/-- DEX, decrement X, Implied: 0xCA (R214). -/
def execDex (s : State) : Result :=
  stepReg decByte .x s

/-- DEY, decrement Y, Implied: 0x88 (R215). -/
def execDey (s : State) : Result :=
  stepReg decByte .y s

end Sys2Proof.Machine
end

