-- ==== Sys2Proof/Machine/StackFlag.lean ====
section
/-! DEFINITION. Stack, flag and no-operation instructions (44_stack_flag_nop.md, R260 to R287). All are Implied mode and advance pc by 1. -/

namespace Sys2Proof.Machine

/-- A push: `StackPush(v)`, no flag (R260, R261). -/
def pushThen (s : State) (v : Byte) : Result :=
  finish do
    let t ← stackPush s v
    return t.advance Mode.implied.length

/-- A pull: `v <- StackPop()`, then the effect of the pulled byte on the state after the pull (R262, R263). -/
def pullThen (s : State) (effect : Byte → State → State) : Result :=
  finish do
    let (v, t) ← stackPop s
    return (effect v t).advance Mode.implied.length

/-- PHA, push accumulator, Implied: 0x48 (R260). -/
def execPha (s : State) : Result :=
  pushThen s s.a

/-- PHP, push processor status, Implied: 0x08 (R261). The pushed bit 4 is the live B. -/
def execPhp (s : State) : Result :=
  pushThen s s.flags.pack

/-- PLA, pull accumulator, Implied: 0x68 (R262). -/
def execPla (s : State) : Result :=
  pullThen s fun v t => (t.setReg .a v).setZN v

/-- PLP, pull processor status, Implied: 0x28 (R263). -/
def execPlp (s : State) : Result :=
  pullThen s fun p t => t.setFlags (Flags.unpack p)

/-- CLC, clear carry, Implied: 0x18 (R270). -/
def execClc (s : State) : Result :=
  impliedThen (s.setFlags { s.flags with c := false })

/-- CLD, clear decimal, Implied: 0xD8 (R271). -/
def execCld (s : State) : Result :=
  impliedThen (s.setFlags { s.flags with d := false })

/-- CLI, clear interrupt disable, Implied: 0x58 (R272). -/
def execCli (s : State) : Result :=
  impliedThen (s.setFlags { s.flags with i := false })

/-- CLV, clear overflow, Implied: 0xB8 (R273). -/
def execClv (s : State) : Result :=
  impliedThen (s.setFlags { s.flags with v := false })

/-- SEC, set carry, Implied: 0x38 (R274). -/
def execSec (s : State) : Result :=
  impliedThen (s.setFlags { s.flags with c := true })

/-- SED, set decimal, Implied: 0xF8 (R275). -/
def execSed (s : State) : Result :=
  impliedThen (s.setFlags { s.flags with d := true })

/-- SEI, set interrupt disable, Implied: 0x78 (R276). -/
def execSei (s : State) : Result :=
  impliedThen (s.setFlags { s.flags with i := true })

/-- NOP, no operation, Implied: 0xEA (R287). Only pc changes. -/
def execNop (s : State) : Result :=
  impliedThen s

end Sys2Proof.Machine
end

