-- ==== Sys2Proof/Machine/Fetch.lean ====
section
/-! DEFINITION. program_counter_sequencer: the fetch of an instruction's bytes (R26 steps 1 to 3, R90, R93), which instructions write pc (R29), and the word the host places at the fetch. -/

namespace Sys2Proof.Machine

/-- Fetch and decode the instruction at pc. The opcode byte is read first; an illegal one reads no operand byte (R110); then
the operand bytes in ascending order, whether or not they are used (R93). Any read may fault, in this order (R295). -/
def fetch (s : State) : Except Fault Instr := do
  let opc ← memRead s s.pc
  match decodeOpcode opc with
  | none => .error (.illegalOpcode opc s.pc)
  | some (.one i) => return i
  | some (.two mk) =>
    let b ← memRead s (s.pc + 1)
    return mk b
  | some (.three mk) =>
    let lo ← memRead s (s.pc + 1)
    let hi ← memRead s (s.pc + 2)
    return mk (wordOf hi lo)

/-- `pc_set`: whether the instruction writes pc itself from this state: always for JMP, JSR, RTS, BRK and RTI, for a branch
when its condition holds, never for the others (R29). -/
def setsPc (i : Instr) (f : Flags) : Bool :=
  match i.mnemonic with
  | .bcc => !f.c
  | .bcs => f.c
  | .beq => f.z
  | .bne => !f.z
  | .bpl => !f.n
  | .bmi => f.n
  | .bvc => !f.v
  | .bvs => f.v
  | .jmp | .jsr | .rts | .brk | .rti => true
  | .adc | .and | .asl | .bit | .clc | .cld | .cli | .clv | .cmp | .cpx | .cpy | .dec | .dex | .dey | .eor | .inc
  | .inx | .iny | .lda | .ldx | .ldy | .lsr | .nop | .ora | .pha | .php | .pla | .plp | .rol | .ror | .sbc | .sec
  | .sed | .sei | .sta | .stx | .sty | .tax | .tay | .tsx | .txa | .txs | .tya => false

/-- Three bytes stored at pc, pc + 1 and pc + 2. Where one of these addresses is not bound (before `load` none is), all 65536
addresses become bound: this stands for the host's `load` (R332; log entry 6). -/
def placeAtPc (s : State) (b₀ b₁ b₂ : Byte) : State :=
  { s with
    mem := ((s.mem.write s.pc.toNat b₀).write (s.pc + 1).toNat b₁).write (s.pc + 2).toNat b₂
    memLen :=
      if s.pc.toNat < s.memLen ∧ (s.pc + 1).toNat < s.memLen ∧ (s.pc + 2).toNat < s.memLen then s.memLen
      else Config.addressSpace }

/-- The instruction whose table bits are w, stored where the next step fetches. -/
def placeTableWord (s : State) (nbits w : Nat) : State :=
  match tableBytes nbits w with
  | [b₀, b₁, b₂] => placeAtPc s b₀ b₁ b₂
  | _ => s

end Sys2Proof.Machine
end

