-- ==== Sys2Proof/Machine/Step.lean ====
section
/-! DEFINITION. One step (R26): fetch, decode, resolve, execute, advance; a fault ends it with the state unchanged (R294). -/

namespace Sys2Proof.Machine

/-- `step()`: exactly one instruction (R12, R26). -/
def step (s : State) : Host.Outcome State Fault Refusal :=
  match fetch s with
  | .ok i => exec i s
  | .error f => .fault f

/-- The state with a table word stored where `step` fetches its next instruction (log entry 6). -/
def State.withFetchWord (s : State) (nbits w : Nat) : State := placeTableWord s nbits w

end Sys2Proof.Machine
end

