-- ==== Sys2Proof/Machine/Launch.lean ====
section
/-! DEFINITION. The host's transactions `construct()` and `load(image, origin)`: this hardware's reset (R330 to R334). The bytes the spec leaves unspecified are arguments here, free inputs of the launch (93_implementation_defined.md section 3). -/

namespace Sys2Proof.Machine

/-- `construct()`: registers, flags and sp zero, memory unbound (R50, R330). STACK_CAPACITY is an argument of the model, on this
hardware `Config.stackCapacity` (R8; log entry 4); the stack entries are unspecified: an argument too (log entry 3). -/
def construct (capacity : Nat) (entries : Nat → Byte) : State :=
  { State.reset with stackCapacity := capacity, stack := (List.range capacity).map entries }

/-- The cells of a byte sequence placed from an address on. -/
def imageCells : Nat → List Byte → List Host.Cell
  | _, [] => []
  | addr, v :: rest => (addr, v) :: imageCells (addr + 1) rest

/-- Many bytes written one after another; the last one written to an address stays. -/
def Memory.writeCells (m : Memory) : List Host.Cell → Memory
  | [] => m
  | cell :: rest => Memory.writeCells (m.write cell.1 cell.2) rest

/-- The MEM_LEN of a launch: the host's, or `origin + len(image)`, at most 65536 (R7, R332; log entry 7). -/
def launchMemLen (image : List Byte) (origin : Word) : Option Nat → Nat
  | some n => n
  | none => min (origin.toNat + image.length) Config.addressSpace

/-- The memory right after `load`: the image at its place; every other bound cell holds the byte that `others` gives it, a
free input of the launch (R332; log entry 2). -/
def launchMemory (image : List Byte) (origin : Word) (memLen : Nat) (others : List Host.Cell) : Memory :=
  Memory.writeCells (Memory.writeCells [] (others.filter fun cell => cell.1 < memLen)) (imageCells origin.toNat image)

/-- `load(image, origin)` (R331 to R333). It succeeds at most once per core; a failed load changes nothing and may be tried
again. A MEM_LEN outside 1..65536 is not admissible (R7). -/
def load (image : List Byte) (origin : Word) (memLen : Option Nat) (others : List Host.Cell) (s : State) : Result :=
  let len := launchMemLen image origin memLen
  if s.memLen ≠ 0 then .refused .secondLoad
  else if Config.addressSpace < len ∨ len = 0 then .refused .memLenNotAdmissible
  else if len < origin.toNat + image.length then .fault (.outOfBoundsAccess (max origin.toNat len))
  else .next { s with memLen := len, mem := launchMemory image origin len others, pc := origin }

end Sys2Proof.Machine
end

