-- ==== Sys2Proof/Machine/Run.lean ====
section
/-! DEFINITION. What the host sees of a step, and the host's transaction `run(stop)` (R12, R29, R31, R294). -/

namespace Sys2Proof.Machine

/-- The second half of a step's result: `Ok(bytes_consumed, pc_set)` (R12, R26 step 6). It is not state (R29). -/
structure Report where
  bytesConsumed : Nat
  pcSet : Bool
deriving DecidableEq, Repr

/-- A step as the host sees it: the new state with its report, or a fault. -/
inductive StepResult where
  | ok (s : State) (report : Report)
  | fault (f : Fault)
  | refused (r : Refusal)
deriving DecidableEq, Repr

/-- `step()` with its report (R26 step 6; log entry 9). -/
def stepReport (s : State) : StepResult :=
  match fetch s with
  | .error f => .fault f
  | .ok i =>
    match exec i s with
    | .next t => .ok t { bytesConsumed := i.length, pcSet := setsPc i s.flags }
    | .fault f => .fault f
    | .refused r => .refused r

/-- The state after a step: after a fault it is the state before (R294). -/
def stateAfter (s : State) : State :=
  match step s with
  | .next t => t
  | .fault _ | .refused _ => s

/-- How a run ends (R31). `unfinished` is the model's own: the given number of steps is used up. -/
inductive RunResult where
  | stopped (s : State)
  | faulted (f : Fault) (s : State)
  | refused (r : Refusal) (s : State)
  | unfinished (s : State)
deriving DecidableEq, Repr

/-- `run(stop)`: ask `stop` before each step; it may read the core's state and the reports of earlier steps, newest first;
the run ends when it says stop or when a step faults (R31). The first number bounds the steps taken (log entry 8). -/
def run (stop : List Report → State → Bool) : Nat → List Report → State → RunResult
  | 0, reports, s => if stop reports s then .stopped s else .unfinished s
  | n + 1, reports, s =>
    if stop reports s then .stopped s
    else match stepReport s with
      | .ok t report => run stop n (report :: reports) t
      | .fault f => .faulted f s
      | .refused r => .refused r s

end Sys2Proof.Machine
end

