-- ==== Sys2Proof/Safety.lean ====
section
/-! DEFINITION. What counts as a well-formed state and as a safe run. -/

namespace Sys2Proof.Machine

/-- The invariant of the core: sp is a legal count (R42), the stack array has its size (R43), STACK_CAPACITY is
admissible (R8), MEM_LEN is admissible or 0 (R7, R330), and the memory is in canonical form with only bound addresses listed (R60). -/
def State.Inv (s : State) : Prop :=
  s.sp ≤ s.stackCapacity ∧ s.stack.length = s.stackCapacity ∧ Config.CapacityAdmissible s.stackCapacity
    ∧ s.memLen ≤ Config.addressSpace ∧ s.mem.wf = true ∧ ∀ cell ∈ s.mem, cell.1 < s.memLen

/-- A run of n steps in which no step faults: the premise 93_implementation_defined.md section 3 asks of a claim about a
program. The end of a run is the host's. -/
def SafeFor (n : Nat) (s : State) : Prop := ∃ t, Host.Core.run Sys2Proof.core n s = .next t

end Sys2Proof.Machine
end

