-- ==== Sys2Proof/Certificates/Slice0/Obligations.lean ====
section
/-! DEFINITION. The statements for the provers, and the small definitions they are written with. Every statement says what the model does in its own names: `Source.get`, `effectiveAddress`, `addWithCarry` and the like are pinned to the spec's rules by statements of their own. -/

namespace Sys2Proof.Claims

open Sys2Proof Sys2Proof.Machine

/-- One encoding of a reading instruction: its bytes, the instruction, its operand. -/
structure ReadForm where
  bytes : List Byte
  instr : Instr
  src : Source

/-- One encoding of an instruction that writes memory: its bytes, the instruction, the mode of the byte it writes. -/
structure StoreForm where
  bytes : List Byte
  instr : Instr
  mode : MemMode

/-- The encodings of LDA (R131). -/
def ldaForms (b : Byte) (w : Word) : List ReadForm :=
  [⟨[0xA9, b], .ldaImm b, .imm b⟩,
   ⟨[0xA5, b], .ldaZp b, .mem (.zeroPage b)⟩,
   ⟨[0xB5, b], .ldaZpx b, .mem (.zeroPageX b)⟩,
   ⟨[0xAD, lo8 w, hi8 w], .ldaAbs w, .mem (.absolute w)⟩,
   ⟨[0xBD, lo8 w, hi8 w], .ldaAbsx w, .mem (.absoluteX w)⟩,
   ⟨[0xB9, lo8 w, hi8 w], .ldaAbsy w, .mem (.absoluteY w)⟩,
   ⟨[0xA1, b], .ldaIndx b, .mem (.indirectX b)⟩,
   ⟨[0xB1, b], .ldaIndy b, .mem (.indirectY b)⟩]

/-- The encodings of LDX (R132). -/
def ldxForms (b : Byte) (w : Word) : List ReadForm :=
  [⟨[0xA2, b], .ldxImm b, .imm b⟩,
   ⟨[0xA6, b], .ldxZp b, .mem (.zeroPage b)⟩,
   ⟨[0xB6, b], .ldxZpy b, .mem (.zeroPageY b)⟩,
   ⟨[0xAE, lo8 w, hi8 w], .ldxAbs w, .mem (.absolute w)⟩,
   ⟨[0xBE, lo8 w, hi8 w], .ldxAbsy w, .mem (.absoluteY w)⟩]

/-- The encodings of LDY (R133). -/
def ldyForms (b : Byte) (w : Word) : List ReadForm :=
  [⟨[0xA0, b], .ldyImm b, .imm b⟩,
   ⟨[0xA4, b], .ldyZp b, .mem (.zeroPage b)⟩,
   ⟨[0xB4, b], .ldyZpx b, .mem (.zeroPageX b)⟩,
   ⟨[0xAC, lo8 w, hi8 w], .ldyAbs w, .mem (.absolute w)⟩,
   ⟨[0xBC, lo8 w, hi8 w], .ldyAbsx w, .mem (.absoluteX w)⟩]

/-- The encodings of ADC (R170). -/
def adcForms (b : Byte) (w : Word) : List ReadForm :=
  [⟨[0x69, b], .adcImm b, .imm b⟩,
   ⟨[0x65, b], .adcZp b, .mem (.zeroPage b)⟩,
   ⟨[0x75, b], .adcZpx b, .mem (.zeroPageX b)⟩,
   ⟨[0x6D, lo8 w, hi8 w], .adcAbs w, .mem (.absolute w)⟩,
   ⟨[0x7D, lo8 w, hi8 w], .adcAbsx w, .mem (.absoluteX w)⟩,
   ⟨[0x79, lo8 w, hi8 w], .adcAbsy w, .mem (.absoluteY w)⟩,
   ⟨[0x61, b], .adcIndx b, .mem (.indirectX b)⟩,
   ⟨[0x71, b], .adcIndy b, .mem (.indirectY b)⟩]

/-- The encodings of SBC (R171). -/
def sbcForms (b : Byte) (w : Word) : List ReadForm :=
  [⟨[0xE9, b], .sbcImm b, .imm b⟩,
   ⟨[0xE5, b], .sbcZp b, .mem (.zeroPage b)⟩,
   ⟨[0xF5, b], .sbcZpx b, .mem (.zeroPageX b)⟩,
   ⟨[0xED, lo8 w, hi8 w], .sbcAbs w, .mem (.absolute w)⟩,
   ⟨[0xFD, lo8 w, hi8 w], .sbcAbsx w, .mem (.absoluteX w)⟩,
   ⟨[0xF9, lo8 w, hi8 w], .sbcAbsy w, .mem (.absoluteY w)⟩,
   ⟨[0xE1, b], .sbcIndx b, .mem (.indirectX b)⟩,
   ⟨[0xF1, b], .sbcIndy b, .mem (.indirectY b)⟩]

/-- The encodings of AND (R175). -/
def andForms (b : Byte) (w : Word) : List ReadForm :=
  [⟨[0x29, b], .andImm b, .imm b⟩,
   ⟨[0x25, b], .andZp b, .mem (.zeroPage b)⟩,
   ⟨[0x35, b], .andZpx b, .mem (.zeroPageX b)⟩,
   ⟨[0x2D, lo8 w, hi8 w], .andAbs w, .mem (.absolute w)⟩,
   ⟨[0x3D, lo8 w, hi8 w], .andAbsx w, .mem (.absoluteX w)⟩,
   ⟨[0x39, lo8 w, hi8 w], .andAbsy w, .mem (.absoluteY w)⟩,
   ⟨[0x21, b], .andIndx b, .mem (.indirectX b)⟩,
   ⟨[0x31, b], .andIndy b, .mem (.indirectY b)⟩]

/-- The encodings of ORA (R176). -/
def oraForms (b : Byte) (w : Word) : List ReadForm :=
  [⟨[0x09, b], .oraImm b, .imm b⟩,
   ⟨[0x05, b], .oraZp b, .mem (.zeroPage b)⟩,
   ⟨[0x15, b], .oraZpx b, .mem (.zeroPageX b)⟩,
   ⟨[0x0D, lo8 w, hi8 w], .oraAbs w, .mem (.absolute w)⟩,
   ⟨[0x1D, lo8 w, hi8 w], .oraAbsx w, .mem (.absoluteX w)⟩,
   ⟨[0x19, lo8 w, hi8 w], .oraAbsy w, .mem (.absoluteY w)⟩,
   ⟨[0x01, b], .oraIndx b, .mem (.indirectX b)⟩,
   ⟨[0x11, b], .oraIndy b, .mem (.indirectY b)⟩]

/-- The encodings of EOR (R177). -/
def eorForms (b : Byte) (w : Word) : List ReadForm :=
  [⟨[0x49, b], .eorImm b, .imm b⟩,
   ⟨[0x45, b], .eorZp b, .mem (.zeroPage b)⟩,
   ⟨[0x55, b], .eorZpx b, .mem (.zeroPageX b)⟩,
   ⟨[0x4D, lo8 w, hi8 w], .eorAbs w, .mem (.absolute w)⟩,
   ⟨[0x5D, lo8 w, hi8 w], .eorAbsx w, .mem (.absoluteX w)⟩,
   ⟨[0x59, lo8 w, hi8 w], .eorAbsy w, .mem (.absoluteY w)⟩,
   ⟨[0x41, b], .eorIndx b, .mem (.indirectX b)⟩,
   ⟨[0x51, b], .eorIndy b, .mem (.indirectY b)⟩]

/-- The encodings of BIT (R178). -/
def bitForms (b : Byte) (w : Word) : List ReadForm :=
  [⟨[0x24, b], .bitZp b, .mem (.zeroPage b)⟩,
   ⟨[0x2C, lo8 w, hi8 w], .bitAbs w, .mem (.absolute w)⟩]

/-- The encodings of CMP (R180). -/
def cmpForms (b : Byte) (w : Word) : List ReadForm :=
  [⟨[0xC9, b], .cmpImm b, .imm b⟩,
   ⟨[0xC5, b], .cmpZp b, .mem (.zeroPage b)⟩,
   ⟨[0xD5, b], .cmpZpx b, .mem (.zeroPageX b)⟩,
   ⟨[0xCD, lo8 w, hi8 w], .cmpAbs w, .mem (.absolute w)⟩,
   ⟨[0xDD, lo8 w, hi8 w], .cmpAbsx w, .mem (.absoluteX w)⟩,
   ⟨[0xD9, lo8 w, hi8 w], .cmpAbsy w, .mem (.absoluteY w)⟩,
   ⟨[0xC1, b], .cmpIndx b, .mem (.indirectX b)⟩,
   ⟨[0xD1, b], .cmpIndy b, .mem (.indirectY b)⟩]

/-- The encodings of CPX (R181). -/
def cpxForms (b : Byte) (w : Word) : List ReadForm :=
  [⟨[0xE0, b], .cpxImm b, .imm b⟩,
   ⟨[0xE4, b], .cpxZp b, .mem (.zeroPage b)⟩,
   ⟨[0xEC, lo8 w, hi8 w], .cpxAbs w, .mem (.absolute w)⟩]

/-- The encodings of CPY (R182). -/
def cpyForms (b : Byte) (w : Word) : List ReadForm :=
  [⟨[0xC0, b], .cpyImm b, .imm b⟩,
   ⟨[0xC4, b], .cpyZp b, .mem (.zeroPage b)⟩,
   ⟨[0xCC, lo8 w, hi8 w], .cpyAbs w, .mem (.absolute w)⟩]

/-- The encodings of STA (R140). -/
def staForms (b : Byte) (w : Word) : List StoreForm :=
  [⟨[0x85, b], .staZp b, .zeroPage b⟩,
   ⟨[0x95, b], .staZpx b, .zeroPageX b⟩,
   ⟨[0x8D, lo8 w, hi8 w], .staAbs w, .absolute w⟩,
   ⟨[0x9D, lo8 w, hi8 w], .staAbsx w, .absoluteX w⟩,
   ⟨[0x99, lo8 w, hi8 w], .staAbsy w, .absoluteY w⟩,
   ⟨[0x81, b], .staIndx b, .indirectX b⟩,
   ⟨[0x91, b], .staIndy b, .indirectY b⟩]

/-- The encodings of STX (R141). -/
def stxForms (b : Byte) (w : Word) : List StoreForm :=
  [⟨[0x86, b], .stxZp b, .zeroPage b⟩,
   ⟨[0x96, b], .stxZpy b, .zeroPageY b⟩,
   ⟨[0x8E, lo8 w, hi8 w], .stxAbs w, .absolute w⟩]

/-- The encodings of STY (R142). -/
def styForms (b : Byte) (w : Word) : List StoreForm :=
  [⟨[0x84, b], .styZp b, .zeroPage b⟩,
   ⟨[0x94, b], .styZpx b, .zeroPageX b⟩,
   ⟨[0x8C, lo8 w, hi8 w], .styAbs w, .absolute w⟩]

/-- The memory encodings of ASL (R200). -/
def aslForms (b : Byte) (w : Word) : List StoreForm :=
  [⟨[0x06, b], .aslZp b, .zeroPage b⟩,
   ⟨[0x16, b], .aslZpx b, .zeroPageX b⟩,
   ⟨[0x0E, lo8 w, hi8 w], .aslAbs w, .absolute w⟩,
   ⟨[0x1E, lo8 w, hi8 w], .aslAbsx w, .absoluteX w⟩]

/-- The memory encodings of LSR (R201). -/
def lsrForms (b : Byte) (w : Word) : List StoreForm :=
  [⟨[0x46, b], .lsrZp b, .zeroPage b⟩,
   ⟨[0x56, b], .lsrZpx b, .zeroPageX b⟩,
   ⟨[0x4E, lo8 w, hi8 w], .lsrAbs w, .absolute w⟩,
   ⟨[0x5E, lo8 w, hi8 w], .lsrAbsx w, .absoluteX w⟩]

/-- The memory encodings of ROL (R202). -/
def rolForms (b : Byte) (w : Word) : List StoreForm :=
  [⟨[0x26, b], .rolZp b, .zeroPage b⟩,
   ⟨[0x36, b], .rolZpx b, .zeroPageX b⟩,
   ⟨[0x2E, lo8 w, hi8 w], .rolAbs w, .absolute w⟩,
   ⟨[0x3E, lo8 w, hi8 w], .rolAbsx w, .absoluteX w⟩]

/-- The memory encodings of ROR (R203). -/
def rorForms (b : Byte) (w : Word) : List StoreForm :=
  [⟨[0x66, b], .rorZp b, .zeroPage b⟩,
   ⟨[0x76, b], .rorZpx b, .zeroPageX b⟩,
   ⟨[0x6E, lo8 w, hi8 w], .rorAbs w, .absolute w⟩,
   ⟨[0x7E, lo8 w, hi8 w], .rorAbsx w, .absoluteX w⟩]

/-- The memory encodings of INC (R210). -/
def incForms (b : Byte) (w : Word) : List StoreForm :=
  [⟨[0xE6, b], .incZp b, .zeroPage b⟩,
   ⟨[0xF6, b], .incZpx b, .zeroPageX b⟩,
   ⟨[0xEE, lo8 w, hi8 w], .incAbs w, .absolute w⟩,
   ⟨[0xFE, lo8 w, hi8 w], .incAbsx w, .absoluteX w⟩]

/-- The memory encodings of DEC (R211). -/
def decForms (b : Byte) (w : Word) : List StoreForm :=
  [⟨[0xC6, b], .decZp b, .zeroPage b⟩,
   ⟨[0xD6, b], .decZpx b, .zeroPageX b⟩,
   ⟨[0xCE, lo8 w, hi8 w], .decAbs w, .absolute w⟩,
   ⟨[0xDE, lo8 w, hi8 w], .decAbsx w, .absoluteX w⟩]

/-- The contract of a reading mnemonic. Each form is decoded from its bytes. When its operand is read as v, it completes with
the effect on the state, everything else as before, and pc past its bytes. When reading the operand faults, it faults so. -/
def ReadsOperand (forms : Byte → Word → List ReadForm) (effect : State → Byte → State) : Prop :=
  ∀ (b : Byte) (w : Word) (s : State), ∀ form ∈ forms b w,
    decode form.bytes = .ok (form.instr, [])
    ∧ (∀ v, form.src.get s = .ok v →
        exec form.instr s = .next { effect s v with pc := s.pc + BitVec.ofNat 16 form.bytes.length })
    ∧ (∀ f, form.src.get s = .error f → exec form.instr s = .fault f)

/-- The contract of a storing mnemonic. Each form is decoded from its bytes. When its effective address is bound, it completes:
that byte reads as the value, every other byte of memory reads as before, pc is past its bytes, nothing else changes. When the
address is not bound, or its pointer cannot be read, it faults so. -/
def StoresByte (forms : Byte → Word → List StoreForm) (value : State → Byte) : Prop :=
  ∀ (b : Byte) (w : Word) (s : State), ∀ form ∈ forms b w,
    decode form.bytes = .ok (form.instr, [])
    ∧ (∀ ea, effectiveAddress s form.mode = .ok ea → ea.toNat < s.memLen →
        ∃ t, exec form.instr s = .next t
          ∧ t = { s with mem := t.mem, pc := s.pc + BitVec.ofNat 16 form.bytes.length }
          ∧ (s.Inv → memRead t ea = .ok (value s))
          ∧ ∀ a, a ≠ ea → memRead t a = memRead s a)
    ∧ (∀ f, effectiveAddress s form.mode = .error f
          ∨ (∃ ea, effectiveAddress s form.mode = .ok ea ∧ s.memLen ≤ ea.toNat ∧ f = .outOfBoundsAccess ea.toNat) →
        exec form.instr s = .fault f)

/-- The contract of a read-modify-write mnemonic in its memory modes: the new byte goes where the old one was read, with the new
flags; every other byte of memory and every other part of the state is as before, pc past its bytes. When the read faults, it
faults so. -/
def ModifiesMemory (forms : Byte → Word → List StoreForm) (newByte : State → Byte → Byte)
    (newFlags : State → Byte → Flags) : Prop :=
  ∀ (b : Byte) (w : Word) (s : State), ∀ form ∈ forms b w, ∃ ea, effectiveAddress s form.mode = .ok ea
    ∧ decode form.bytes = .ok (form.instr, [])
    ∧ (∀ v, memRead s ea = .ok v →
        ∃ t, exec form.instr s = .next t
          ∧ t = { s with mem := t.mem, flags := newFlags s v, pc := s.pc + BitVec.ofNat 16 form.bytes.length }
          ∧ (s.Inv → memRead t ea = .ok (newByte s v))
          ∧ ∀ a, a ≠ ea → memRead t a = memRead s a)
    ∧ (∀ f, memRead s ea = .error f → exec form.instr s = .fault f)

/-- The contract of a branch that tests a flag for a value: decoded from its bytes; the target is pc + 2 plus the signed
displacement when the test holds, else pc + 2; nothing else changes. -/
def BranchesWhen (opcode : Byte) (instr : Byte → Instr) (cond : Flags → Prop) : Prop :=
  ∀ (b : Byte) (s : State),
    decode [opcode, b] = .ok (instr b, [])
    ∧ (cond s.flags → exec (instr b) s = .next { s with pc := s.pc + 2 + b.signExtend 16 })
    ∧ (¬ cond s.flags → exec (instr b) s = .next { s with pc := s.pc + 2 })

/-- The contract of a one-byte instruction (Implied or Accumulator mode) that never faults: pc advances by 1, the rest is the effect. -/
def ImpliedEffect (opcode : Byte) (instr : Instr) (effect : State → State) : Prop :=
  decode [opcode] = .ok (instr, []) ∧ ∀ s : State, exec instr s = .next { effect s with pc := s.pc + 1 }

/-- The memory mode through which an instruction writes memory: STA, STX, STY and the memory forms of ASL, LSR, ROL, ROR, INC,
DEC (R70). -/
def storedTo : Instr → Option MemMode
  | .aslZp b => some (.zeroPage b)
  | .aslZpx b => some (.zeroPageX b)
  | .aslAbs w => some (.absolute w)
  | .aslAbsx w => some (.absoluteX w)
  | .decZp b => some (.zeroPage b)
  | .decZpx b => some (.zeroPageX b)
  | .decAbs w => some (.absolute w)
  | .decAbsx w => some (.absoluteX w)
  | .incZp b => some (.zeroPage b)
  | .incZpx b => some (.zeroPageX b)
  | .incAbs w => some (.absolute w)
  | .incAbsx w => some (.absoluteX w)
  | .lsrZp b => some (.zeroPage b)
  | .lsrZpx b => some (.zeroPageX b)
  | .lsrAbs w => some (.absolute w)
  | .lsrAbsx w => some (.absoluteX w)
  | .rolZp b => some (.zeroPage b)
  | .rolZpx b => some (.zeroPageX b)
  | .rolAbs w => some (.absolute w)
  | .rolAbsx w => some (.absoluteX w)
  | .rorZp b => some (.zeroPage b)
  | .rorZpx b => some (.zeroPageX b)
  | .rorAbs w => some (.absolute w)
  | .rorAbsx w => some (.absoluteX w)
  | .staZp b => some (.zeroPage b)
  | .staZpx b => some (.zeroPageX b)
  | .staAbs w => some (.absolute w)
  | .staAbsx w => some (.absoluteX w)
  | .staAbsy w => some (.absoluteY w)
  | .staIndx b => some (.indirectX b)
  | .staIndy b => some (.indirectY b)
  | .stxZp b => some (.zeroPage b)
  | .stxZpy b => some (.zeroPageY b)
  | .stxAbs w => some (.absolute w)
  | .styZp b => some (.zeroPage b)
  | .styZpx b => some (.zeroPageX b)
  | .styAbs w => some (.absolute w)
  | _ => none

/-- The 105 illegal opcode bytes, as R110 lists them. -/
def illegalBytes : List Byte :=
  [0x02, 0x03, 0x04, 0x07, 0x0B, 0x0C, 0x0F, 0x12, 0x13, 0x14, 0x17, 0x1A, 0x1B, 0x1C, 0x1F] ++
  [0x22, 0x23, 0x27, 0x2B, 0x2F, 0x32, 0x33, 0x34, 0x37, 0x3A, 0x3B, 0x3C, 0x3F, 0x42, 0x43] ++
  [0x44, 0x47, 0x4B, 0x4F, 0x52, 0x53, 0x54, 0x57, 0x5A, 0x5B, 0x5C, 0x5F, 0x62, 0x63, 0x64] ++
  [0x67, 0x6B, 0x6F, 0x72, 0x73, 0x74, 0x77, 0x7A, 0x7B, 0x7C, 0x7F, 0x80, 0x82, 0x83, 0x87] ++
  [0x89, 0x8B, 0x8F, 0x92, 0x93, 0x97, 0x9B, 0x9C, 0x9E, 0x9F, 0xA3, 0xA7, 0xAB, 0xAF, 0xB2] ++
  [0xB3, 0xB7, 0xBB, 0xBF, 0xC2, 0xC3, 0xC7, 0xCB, 0xCF, 0xD2, 0xD3, 0xD4, 0xD7, 0xDA, 0xDB] ++
  [0xDC, 0xDF, 0xE2, 0xE3, 0xE7, 0xEB, 0xEF, 0xF2, 0xF3, 0xF4, 0xF7, 0xFA, 0xFB, 0xFC, 0xFF]

/-- The state with another value in flag D. -/
def withD (s : State) (d : Bool) : State := { s with flags := { s.flags with d := d } }

/-- The state with another value in flag I. -/
def withI (s : State) (i : Bool) : State := { s with flags := { s.flags with i := i } }

end Sys2Proof.Claims

open Sys2Proof Sys2Proof.Machine Sys2Proof.Claims

/-- construct() zeroes registers, flags and sp, leaves memory unbound, and a step before load faults at 0x0000 (R330). -/
def Obligations.ConstructedCoreIsZeroedAndUnbound : Prop :=
  ∀ (capacity : Nat) (entries : Nat → Byte),
    let s := construct capacity entries
    s.a = 0 ∧ s.x = 0 ∧ s.y = 0 ∧ s.pc = 0
      ∧ s.flags = ⟨false, false, false, false, false, false, false⟩ ∧ s.flags.pack = 0x20
      ∧ s.sp = 0 ∧ s.stackCapacity = capacity ∧ s.stack.length = capacity
      ∧ (∀ k, k < capacity → s.stack[k]? = some (entries k)) ∧ s.memLen = 0
      ∧ step s = .fault (.outOfBoundsAccess 0) ∧ stateAfter s = s

/-- load binds MEM_LEN addresses, places the image, leaves every other byte free, sets pc to origin, changes nothing else (R332). -/
def Obligations.LoadBindsImageAndSetsPc : Prop :=
  ∀ (image : List Byte) (origin : Word) (given : Option Nat) (n : Nat) (s : State),
    s.memLen = 0 → n = given.getD (origin.toNat + image.length) → 1 ≤ n → n ≤ 65536 → origin.toNat + image.length ≤ n →
    (∀ others, ∃ t, load image origin given others s = .next t
      ∧ t = { s with pc := origin, memLen := n, mem := t.mem }
      ∧ ∀ i v, image[i]? = some v → t.mem.read (origin.toNat + i) = v)
    ∧ ∀ g : Nat → Byte, ∃ others t, load image origin given others s = .next t
      ∧ ∀ a, a < n → (a < origin.toNat ∨ origin.toNat + image.length ≤ a) → t.mem.read a = g a

/-- load of an image that does not fit faults and may be tried again; a bound core takes no second load (a refusal: log entry 7) (R333, R331, R7, 70_reset_and_hazards.md section 1). -/
def Obligations.LoadThatDoesNotFitFaultsAndIsNotRepeated : Prop :=
  ∀ (image : List Byte) (origin : Word) (others : List Host.Cell) (s : State),
    (s.memLen = 0 →
      (∀ n, 1 ≤ n → n ≤ 65536 → n < origin.toNat + image.length →
        load image origin (some n) others s = .fault (.outOfBoundsAccess (max origin.toNat n)))
      ∧ (65536 < origin.toNat + image.length →
        load image origin none others s = .fault (.outOfBoundsAccess 65536))
      ∧ (∀ n, 1 ≤ n → n ≤ 65536 → origin.toNat + image.length ≤ n →
        ∃ t, load image origin (some n) others s = .next t)
      ∧ ∀ n, n = 0 ∨ 65536 < n → load image origin (some n) others s = .refused .memLenNotAdmissible)
    ∧ ∀ given, 0 < s.memLen → load image origin given others s = .refused .secondLoad

/-- construct() meets the invariant at every STACK_CAPACITY in 1..256; State.reset takes 128 (its zero stack entries: the model's choice, log entry 3) (R8, 10_state.md sections 4 and 5). -/
def Obligations.ResetMeetsInvariant : Prop :=
  State.reset = construct 128 (fun _ => 0) ∧ State.reset.Inv
    ∧ ∀ (capacity : Nat) (entries : Nat → Byte), 1 ≤ capacity → capacity ≤ 256 → (construct capacity entries).Inv

/-- A load that completes leaves a state that meets the invariant (R7, R42, R332, 20_memory.md section 1). -/
def Obligations.LoadKeepsInvariant : Prop :=
  ∀ (image : List Byte) (origin : Word) (given : Option Nat) (others : List Host.Cell) (s t : State),
    s.Inv → load image origin given others s = .next t → t.Inv

/-- Every step keeps 0 <= sp <= STACK_CAPACITY, the stack array's size, the bounds of STACK_CAPACITY and MEM_LEN and the canonical memory (R42, R45, R157, R60, 96_test_vectors_faults.md section 3 (T9)). -/
def Obligations.StepKeepsInvariant : Prop :=
  ∀ s t : State, s.Inv → step s = .next t → t.Inv

/-- Below MEM_LEN a write is seen by the next read and touches no other byte; at or above MEM_LEN every access faults (R62, R63, R64). -/
def Obligations.MemoryAccessesAreBoundsChecked : Prop :=
  ∀ (s : State) (a : Word) (v : Byte), s.Inv →
    (a.toNat < s.memLen →
      memRead s a = .ok (s.mem.read a.toNat)
      ∧ ∃ t, memWrite s a v = .ok t ∧ t = { s with mem := t.mem } ∧ memRead t a = .ok v
        ∧ ∀ a', a' ≠ a → memRead t a' = memRead s a')
    ∧ (s.memLen ≤ a.toNat →
      memRead s a = .error (.outOfBoundsAccess a.toNat) ∧ memWrite s a v = .error (.outOfBoundsAccess a.toNat))
    ∧ (s.memLen = 65536 → (∃ u, memRead s a = .ok u) ∧ ∃ t, memWrite s a v = .ok t)

/-- A 16-bit read takes its low byte from the address and its high byte from the next one modulo 65536, low byte first (R67, R69, 20_memory.md section 2). -/
def Obligations.TwoByteReadIsLowByteFirst : Prop :=
  ∀ (s : State) (a : Word),
    (∀ lo hi, memRead s a = .ok lo → memRead s (BitVec.ofNat 16 (a.toNat + 1)) = .ok hi →
      memRead16 s a = .ok (BitVec.ofNat 16 (hi.toNat * 256 + lo.toNat)))
    ∧ (∀ f, memRead s a = .error f → memRead16 s a = .error f)
    ∧ (∀ lo f, memRead s a = .ok lo → memRead s (BitVec.ofNat 16 (a.toNat + 1)) = .error f →
      memRead16 s a = .error f)

/-- ZeroPage and Absolute modes, plain and indexed: the effective address and its wrap (R98, R99, R100, R102, R103). -/
def Obligations.DirectModesComputeTheirAddress : Prop :=
  ∀ (s : State) (b : Byte) (w : Word),
    effectiveAddress s (.zeroPage b) = .ok (BitVec.ofNat 16 b.toNat)
    ∧ effectiveAddress s (.zeroPageX b) = .ok (BitVec.ofNat 16 ((b.toNat + s.x.toNat) % 256))
    ∧ effectiveAddress s (.zeroPageY b) = .ok (BitVec.ofNat 16 ((b.toNat + s.y.toNat) % 256))
    ∧ effectiveAddress s (.absolute w) = .ok w
    ∧ effectiveAddress s (.absoluteX w) = .ok (BitVec.ofNat 16 ((w.toNat + s.x.toNat) % 65536))
    ∧ effectiveAddress s (.absoluteY w) = .ok (BitVec.ofNat 16 ((w.toNat + s.y.toNat) % 65536))
    ∧ (∀ m ∈ [MemMode.zeroPage b, .zeroPageX b, .zeroPageY b], m.length = 2)
    ∧ (∀ m ∈ [MemMode.absolute w, .absoluteX w, .absoluteY w], m.length = 3)
    ∧ ∀ i : Instr, i.mode = .zeroPageY → i.mnemonic = .ldx ∨ i.mnemonic = .stx

/-- IndirectX and IndirectY: both pointer bytes come from the zero page, Y is added modulo 65536, a failed pointer read faults (R105, R106). -/
def Obligations.IndirectModesReadZeroPagePointers : Prop :=
  ∀ (s : State) (b : Byte),
    let zx := (b.toNat + s.x.toNat) % 256
    (∀ lo hi, memRead s (BitVec.ofNat 16 zx) = .ok lo → memRead s (BitVec.ofNat 16 ((zx + 1) % 256)) = .ok hi →
      effectiveAddress s (.indirectX b) = .ok (BitVec.ofNat 16 (hi.toNat * 256 + lo.toNat)))
    ∧ (∀ f, memRead s (BitVec.ofNat 16 zx) = .error f → effectiveAddress s (.indirectX b) = .error f)
    ∧ (∀ lo f, memRead s (BitVec.ofNat 16 zx) = .ok lo → memRead s (BitVec.ofNat 16 ((zx + 1) % 256)) = .error f →
      effectiveAddress s (.indirectX b) = .error f)
    ∧ (∀ lo hi, memRead s (BitVec.ofNat 16 b.toNat) = .ok lo →
      memRead s (BitVec.ofNat 16 ((b.toNat + 1) % 256)) = .ok hi →
      effectiveAddress s (.indirectY b) = .ok (BitVec.ofNat 16 ((hi.toNat * 256 + lo.toNat + s.y.toNat) % 65536)))
    ∧ (∀ f, memRead s (BitVec.ofNat 16 b.toNat) = .error f → effectiveAddress s (.indirectY b) = .error f)
    ∧ (∀ lo f, memRead s (BitVec.ofNat 16 b.toNat) = .ok lo →
      memRead s (BitVec.ofNat 16 ((b.toNat + 1) % 256)) = .error f →
      effectiveAddress s (.indirectY b) = .error f)
    ∧ (MemMode.indirectX b).length = 2 ∧ (MemMode.indirectY b).length = 2

/-- An immediate operand is its byte; a memory operand is one read at its effective address, after resolution (R94, R97, 30_encoding.md section 2). -/
def Obligations.OperandReadIsImmediateOrMemoryByte : Prop :=
  ∀ (s : State) (b : Byte) (m : MemMode),
    (Source.imm b).get s = .ok b ∧ (Source.imm b).length = 2
    ∧ (∀ ea, effectiveAddress s m = .ok ea → (Source.mem m).get s = memRead s ea)
    ∧ (∀ f, effectiveAddress s m = .error f → (Source.mem m).get s = .error f)

/-- A push stores at S[sp] and raises sp or faults when full; a pull lowers sp and gives S[sp] or faults when empty; S keeps its bytes (R46, R47). -/
def Obligations.PushAndPullFollowTheirRules : Prop :=
  ∀ (s : State) (v : Byte), s.Inv →
    (s.sp < s.stackCapacity → stackPush s v = .ok { s with stack := s.stack.set s.sp v, sp := s.sp + 1 }
      ∧ (s.stack.set s.sp v)[s.sp]? = some v)
    ∧ (s.sp = s.stackCapacity → stackPush s v = .error (.stackFault .push))
    ∧ (s.sp = 0 → stackPop s = .error (.stackFault .pop))
    ∧ (0 < s.sp → ∃ top, s.stack[s.sp - 1]? = some top ∧ stackPop s = .ok (top, { s with sp := s.sp - 1 }))

/-- A 16-bit push stores the high byte, then the low byte; a 16-bit pull gives the word back (R48). -/
def Obligations.SixteenBitPushIsHighByteFirst : Prop :=
  ∀ (s : State) (w : Word), s.Inv →
    (s.sp + 2 ≤ s.stackCapacity → ∃ t, stackPush16 s w = .ok t
      ∧ t = { s with stack := (s.stack.set s.sp (hi8 w)).set (s.sp + 1) (lo8 w), sp := s.sp + 2 }
      ∧ stackPop16 t = .ok (w, { t with sp := s.sp }))
    ∧ (s.stackCapacity < s.sp + 2 → stackPush16 s w = .error (.stackFault .push))
    ∧ (hi8 w).toNat * 256 + (lo8 w).toNat = w.toNat

/-- SetZN sets Z iff the byte is 0 and N iff it is 128 or more; no other flag; never both (R37). -/
def Obligations.SetZNIsZeroAndBitSeven : Prop :=
  ∀ (f : Flags) (v : Byte),
    ((f.setZN v).z = true ↔ v.toNat = 0) ∧ ((f.setZN v).n = true ↔ 128 ≤ v.toNat)
    ∧ f.setZN v = { f with z := (f.setZN v).z, n := (f.setZN v).n }
    ∧ ¬ ((f.setZN v).z = true ∧ (f.setZN v).n = true)

/-- Pack lays out N V 1 B D I Z C; Unpack of it changes no flag; Pack after Unpack(p) is p with bit 5 set (R38, R39). -/
def Obligations.PackAndUnpackTheStatusByte : Prop :=
  (∀ f : Flags, f.pack.toNat = f.n.toNat * 128 + f.v.toNat * 64 + 32 + f.b.toNat * 16 + f.d.toNat * 8
      + f.i.toNat * 4 + f.z.toNat * 2 + f.c.toNat)
    ∧ (∀ p : Byte, Flags.unpack p
        = ⟨p.getLsbD 7, p.getLsbD 6, p.getLsbD 4, p.getLsbD 3, p.getLsbD 2, p.getLsbD 1, p.getLsbD 0⟩)
    ∧ (∀ f : Flags, Flags.unpack f.pack = f) ∧ ∀ p : Byte, (Flags.unpack p).pack = p ||| 0x20

/-- AddWithCarry: the sum modulo 256, the unsigned carry, the signed overflow, and the bit form of the overflow (R160). -/
def Obligations.AddWithCarryIsExactThenNarrowed : Prop :=
  ∀ (a m : Byte) (c : Bool),
    let out := addWithCarry a m c
    out.r.toNat = (a.toNat + m.toNat + c.toNat) % 256
    ∧ (out.carry = true ↔ 255 < a.toNat + m.toNat + c.toNat)
    ∧ (out.overflow = true ↔ a.toInt + m.toInt + c.toNat < -128 ∨ 127 < a.toInt + m.toInt + c.toNat)
    ∧ out.overflow = ((a ^^^ out.r) &&& (m ^^^ out.r)).getLsbD 7

/-- SubWithBorrow: difference modulo 256, carry iff no borrow, signed overflow; equals AddWithCarry of the complement; undoes ADC (R161). -/
def Obligations.SubWithBorrowIsAddOfTheComplement : Prop :=
  ∀ (a m : Byte) (c : Bool),
    let out := subWithBorrow a m c
    (out.r.toNat : Int) = ((a.toNat : Int) - m.toNat - (1 - c.toNat)) % 256
    ∧ (out.carry = true ↔ 0 ≤ (a.toNat : Int) - m.toNat - (1 - c.toNat))
    ∧ (out.overflow = true ↔
        a.toInt - m.toInt - (1 - c.toNat) < -128 ∨ 127 < a.toInt - m.toInt - (1 - c.toNat))
    ∧ out = addWithCarry a (~~~m) c
    ∧ out.overflow = ((a ^^^ m) &&& (a ^^^ out.r)).getLsbD 7
    ∧ (subWithBorrow (addWithCarry a m c).r m (!c)).r = a

/-- A compare sets C iff register >= operand, Z iff equal, N to bit 7 of the difference, and equals SubWithBorrow with carry 1 (R162). -/
def Obligations.CompareIsSubtractWithoutBorrow : Prop :=
  ∀ (f : Flags) (reg m : Byte),
    let g := f.setCompare reg m
    (g.c = true ↔ m.toNat ≤ reg.toNat) ∧ (g.z = true ↔ reg = m) ∧ g.n = (reg - m).getLsbD 7
    ∧ g = { f with n := g.n, z := g.z, c := g.c }
    ∧ g.c = (subWithBorrow reg m true).carry ∧ g.n = (subWithBorrow reg m true).r.getLsbD 7
    ∧ g.z = ((subWithBorrow reg m true).r == 0)

/-- The shift, rotate, increment and decrement functions on a byte; nine rotations in either direction restore byte and carry (R190, R191, R192, R193, R194). -/
def Obligations.ShiftsRotatesAndStepsOfOneByte : Prop :=
  ∀ (v : Byte) (c : Bool),
    shiftLeft v c = (BitVec.ofNat 8 (2 * v.toNat), v.getLsbD 7)
    ∧ shiftRight v c = (BitVec.ofNat 8 (v.toNat / 2), v.getLsbD 0)
    ∧ rotateLeft v c = (BitVec.ofNat 8 (2 * v.toNat + c.toNat), v.getLsbD 7)
    ∧ rotateRight v c = (BitVec.ofNat 8 (v.toNat / 2 + 128 * c.toNat), v.getLsbD 0)
    ∧ (incByte v).toNat = (v.toNat + 1) % 256 ∧ (decByte v).toNat = (v.toNat + 255) % 256
    ∧ (fun p : Byte × Bool => rotateLeft p.1 p.2)^[9] (v, c) = (v, c)
    ∧ (fun p : Byte × Bool => rotateRight p.1 p.2)^[9] (v, c) = (v, c)

/-- LDA, LDX, LDY in every mode: the operand goes to the register, Z and N from it, pc past the bytes, nothing else (R131, R132, R133). -/
def Obligations.LoadsWriteRegisterAndZN : Prop :=
  ReadsOperand ldaForms (fun s v => { s with a := v, flags := s.flags.setZN v })
    ∧ ReadsOperand ldxForms (fun s v => { s with x := v, flags := s.flags.setZN v })
    ∧ ReadsOperand ldyForms (fun s v => { s with y := v, flags := s.flags.setZN v })

/-- STA, STX, STY in every mode: the register goes to the effective address, no flag and no other byte changes (R140, R141, R142). -/
def Obligations.StoresWriteOneByteAndNoFlag : Prop :=
  StoresByte staForms (fun s => s.a) ∧ StoresByte stxForms (fun s => s.x) ∧ StoresByte styForms (fun s => s.y)

/-- TAX, TAY, TXA, TYA copy a register, INX, INY, DEX, DEY step one by 1 modulo 256; Z and N from the result; nothing else changes (R150, R151, R152, R153, R212, R213, R214, R215). -/
def Obligations.RegisterTransfersAndStepsSetZN : Prop :=
  ImpliedEffect 0xAA .tax (fun s => { s with x := s.a, flags := s.flags.setZN s.a })
    ∧ ImpliedEffect 0xA8 .tay (fun s => { s with y := s.a, flags := s.flags.setZN s.a })
    ∧ ImpliedEffect 0x8A .txa (fun s => { s with a := s.x, flags := s.flags.setZN s.x })
    ∧ ImpliedEffect 0x98 .tya (fun s => { s with a := s.y, flags := s.flags.setZN s.y })
    ∧ ImpliedEffect 0xE8 .inx (fun s => { s with x := s.x + 1, flags := s.flags.setZN (s.x + 1) })
    ∧ ImpliedEffect 0xC8 .iny (fun s => { s with y := s.y + 1, flags := s.flags.setZN (s.y + 1) })
    ∧ ImpliedEffect 0xCA .dex (fun s => { s with x := s.x - 1, flags := s.flags.setZN (s.x - 1) })
    ∧ ImpliedEffect 0x88 .dey (fun s => { s with y := s.y - 1, flags := s.flags.setZN (s.y - 1) })

/-- TSX copies the entry count to X and sets Z and N; TXS copies X to sp with no flag, or faults when X > STACK_CAPACITY (R156, R157). -/
def Obligations.StackPointerTransfers : Prop :=
  ImpliedEffect 0xBA .tsx (fun s =>
      { s with x := BitVec.ofNat 8 s.sp, flags := s.flags.setZN (BitVec.ofNat 8 s.sp) })
    ∧ decode [0x9A] = .ok (.txs, [])
    ∧ (∀ s : State, s.x.toNat ≤ s.stackCapacity → exec .txs s = .next { s with sp := s.x.toNat, pc := s.pc + 1 })
    ∧ (∀ s : State, s.stackCapacity < s.x.toNat → exec .txs s = .fault (.stackFault .txs))
    ∧ ∀ s : State, s.stackCapacity = 256 → ∃ t, exec .txs s = .next t ∧ t.sp ≠ 256

/-- ADC in its 8 modes: A, C, V, Z, N from AddWithCarry(A, m, C); B, D, I and all else as before (R170). -/
def Obligations.AdcAddsOperandAndCarry : Prop :=
  ReadsOperand adcForms (fun s m =>
    let out := addWithCarry s.a m s.flags.c
    { s with a := out.r, flags := { s.flags with c := out.carry, v := out.overflow, z := out.r == 0, n := out.r.getLsbD 7 } })

/-- SBC in its 8 modes: A, C, V, Z, N from SubWithBorrow(A, m, C); B, D, I and all else as before (R171, R161, 41_arith_logic_compare.md section 2). -/
def Obligations.SbcSubtractsOperandAndBorrow : Prop :=
  ReadsOperand sbcForms (fun s m =>
    let out := subWithBorrow s.a m s.flags.c
    { s with a := out.r, flags := { s.flags with c := out.carry, v := out.overflow, z := out.r == 0, n := out.r.getLsbD 7 } })

/-- AND, ORA, EOR in their 8 modes: the bitwise result to A, Z and N from it, C and V as before (R175, R176, R177, R163). -/
def Obligations.LogicalOperationsOnAccumulator : Prop :=
  ReadsOperand andForms (fun s m => { s with a := s.a &&& m, flags := s.flags.setZN (s.a &&& m) })
    ∧ ReadsOperand oraForms (fun s m => { s with a := s.a ||| m, flags := s.flags.setZN (s.a ||| m) })
    ∧ ReadsOperand eorForms (fun s m => { s with a := s.a ^^^ m, flags := s.flags.setZN (s.a ^^^ m) })

/-- BIT: Z from A & operand, N and V from bits 7 and 6 of the operand; A, C and memory as before (R178). -/
def Obligations.BitTestsAccumulatorAgainstOperand : Prop :=
  ReadsOperand bitForms (fun s m =>
    { s with flags := { s.flags with z := s.a &&& m == 0, n := m.getLsbD 7, v := m.getLsbD 6 } })

/-- CMP, CPX, CPY in every mode: N, Z, C from the comparison of the register with the operand; nothing else (R180, R181, R182). -/
def Obligations.ComparesSetNZCOnly : Prop :=
  ReadsOperand cmpForms (fun s m => { s with flags :=
        { s.flags with n := (s.a - m).getLsbD 7, z := s.a == m, c := decide (m.toNat ≤ s.a.toNat) } })
    ∧ ReadsOperand cpxForms (fun s m => { s with flags :=
        { s.flags with n := (s.x - m).getLsbD 7, z := s.x == m, c := decide (m.toNat ≤ s.x.toNat) } })
    ∧ ReadsOperand cpyForms (fun s m => { s with flags :=
        { s.flags with n := (s.y - m).getLsbD 7, z := s.y == m, c := decide (m.toNat ≤ s.y.toNat) } })

/-- ASL, LSR, ROL, ROR in every mode: the new byte where the old one was, C the bit shifted out, Z and N from the new byte (R200, R201, R202, R203). -/
def Obligations.ShiftsAndRotatesWriteBack : Prop :=
  let flagsOf (out : Byte × Bool) (s : State) : Flags := Flags.setZN { s.flags with c := out.2 } out.1
  ImpliedEffect 0x0A .aslAcc (fun s => { s with a := (shiftLeft s.a false).1, flags := flagsOf (shiftLeft s.a false) s })
    ∧ ImpliedEffect 0x4A .lsrAcc (fun s => { s with a := (shiftRight s.a false).1, flags := flagsOf (shiftRight s.a false) s })
    ∧ ImpliedEffect 0x2A .rolAcc (fun s => { s with a := (rotateLeft s.a s.flags.c).1, flags := flagsOf (rotateLeft s.a s.flags.c) s })
    ∧ ImpliedEffect 0x6A .rorAcc (fun s => { s with a := (rotateRight s.a s.flags.c).1, flags := flagsOf (rotateRight s.a s.flags.c) s })
    ∧ ModifiesMemory aslForms (fun _ v => (shiftLeft v false).1) (fun s v => flagsOf (shiftLeft v false) s)
    ∧ ModifiesMemory lsrForms (fun _ v => (shiftRight v false).1) (fun s v => flagsOf (shiftRight v false) s)
    ∧ ModifiesMemory rolForms (fun s v => (rotateLeft v s.flags.c).1) (fun s v => flagsOf (rotateLeft v s.flags.c) s)
    ∧ ModifiesMemory rorForms (fun s v => (rotateRight v s.flags.c).1) (fun s v => flagsOf (rotateRight v s.flags.c) s)

/-- INC and DEC: the memory byte plus or minus 1 modulo 256 at the same address, Z and N from it, C and V as before (R210, R211). -/
def Obligations.IncAndDecMemoryByte : Prop :=
  ModifiesMemory incForms (fun _ v => v + 1) (fun s v => s.flags.setZN (v + 1))
    ∧ ModifiesMemory decForms (fun _ v => v - 1) (fun s v => s.flags.setZN (v - 1))

/-- The Relative target is pc + 2 plus the signed displacement modulo 65536 (R107). -/
def Obligations.RelativeTargetIsSignedFromNextInstruction : Prop :=
  ∀ (s : State) (b : Byte),
    ((relativeTarget s b).toNat : Int) = ((s.pc.toNat : Int) + 2 + b.toInt) % 65536
    ∧ -128 ≤ b.toInt ∧ b.toInt ≤ 127 ∧ Mode.relative.length = 2

/-- Each of the eight branches goes to its target when its flag has its value, else to pc + 2, and changes nothing else (R221, R222, R223, R224, R225, R226, R227, R228). -/
def Obligations.BranchesTestTheirFlag : Prop :=
  BranchesWhen 0x90 .bcc (fun f => f.c = false) ∧ BranchesWhen 0xB0 .bcs (fun f => f.c = true)
    ∧ BranchesWhen 0xF0 .beq (fun f => f.z = true) ∧ BranchesWhen 0xD0 .bne (fun f => f.z = false)
    ∧ BranchesWhen 0x10 .bpl (fun f => f.n = false) ∧ BranchesWhen 0x30 .bmi (fun f => f.n = true)
    ∧ BranchesWhen 0x50 .bvc (fun f => f.v = false) ∧ BranchesWhen 0x70 .bvs (fun f => f.v = true)

/-- JMP Absolute goes to the operand word; JMP Indirect to the word stored there, high byte from the next address always (R240, R104). -/
def Obligations.JmpGoesToOperandOrStoredWord : Prop :=
  ∀ (w : Word) (s : State),
    decode [0x4C, lo8 w, hi8 w] = .ok (.jmpAbs w, []) ∧ decode [0x6C, lo8 w, hi8 w] = .ok (.jmpInd w, [])
    ∧ exec (.jmpAbs w) s = .next { s with pc := w }
    ∧ (∀ lo hi, memRead s w = .ok lo → memRead s (w + 1) = .ok hi →
        exec (.jmpInd w) s = .next { s with pc := BitVec.ofNat 16 (hi.toNat * 256 + lo.toNat) })
    ∧ (∀ f, memRead s w = .error f → exec (.jmpInd w) s = .fault f)
    ∧ (∀ lo f, memRead s w = .ok lo → memRead s (w + 1) = .error f → exec (.jmpInd w) s = .fault f)

/-- JSR pushes pc + 2, high byte first, and goes to its operand word, or faults with nothing pushed when two entries do not fit (R241). -/
def Obligations.JsrPushesReturnAddressAndJumps : Prop :=
  ∀ (w : Word) (s : State), s.Inv →
    decode [0x20, lo8 w, hi8 w] = .ok (.jsrAbs w, [])
    ∧ (s.sp + 2 ≤ s.stackCapacity → exec (.jsrAbs w) s = .next
        { s with stack := (s.stack.set s.sp (hi8 (s.pc + 2))).set (s.sp + 1) (lo8 (s.pc + 2)), sp := s.sp + 2, pc := w })
    ∧ (s.stackCapacity < s.sp + 2 → exec (.jsrAbs w) s = .fault (.stackFault .push))

/-- RTS pulls low then high byte and goes to that word + 1, or faults with nothing pulled when two entries are not there (R242). -/
def Obligations.RtsReturnsPastPulledAddress : Prop :=
  ∀ s : State, s.Inv →
    decode [0x60] = .ok (.rts, [])
    ∧ (2 ≤ s.sp → ∃ lo hi, s.stack[s.sp - 1]? = some lo ∧ s.stack[s.sp - 2]? = some hi
        ∧ exec .rts s = .next { s with sp := s.sp - 2, pc := BitVec.ofNat 16 (hi.toNat * 256 + lo.toNat + 1) })
    ∧ (s.sp < 2 → exec .rts s = .fault (.stackFault .pop))

/-- BRK pushes pc + 2 and the status with B set, sets B and I, and goes to the word at 0xFFFE; it faults for want of room first (R243, R300). -/
def Obligations.BrkTakesTheSoftwareBreak : Prop :=
  ∀ s : State, s.Inv →
    decode [0x00] = .ok (.brk, [])
    ∧ (∀ lo hi, s.sp + 3 ≤ s.stackCapacity → memRead s 0xFFFE = .ok lo → memRead s 0xFFFF = .ok hi →
        exec .brk s = .next { s with
          stack := ((s.stack.set s.sp (hi8 (s.pc + 2))).set (s.sp + 1) (lo8 (s.pc + 2))).set (s.sp + 2)
            (Flags.pack { s.flags with b := true })
          sp := s.sp + 3
          flags := { s.flags with b := true, i := true }
          pc := BitVec.ofNat 16 (hi.toNat * 256 + lo.toNat) })
    ∧ (s.stackCapacity < s.sp + 3 → exec .brk s = .fault (.stackFault .push))
    ∧ (∀ f, s.sp + 3 ≤ s.stackCapacity → memRead s 0xFFFE = .error f → exec .brk s = .fault f)
    ∧ (∀ lo f, s.sp + 3 ≤ s.stackCapacity → memRead s 0xFFFE = .ok lo → memRead s 0xFFFF = .error f → exec .brk s = .fault f)

/-- RTI pulls all seven flags, then pc with nothing added, or faults with nothing pulled when three entries are not there (R244). -/
def Obligations.RtiRestoresFlagsAndPc : Prop :=
  ∀ s : State, s.Inv →
    decode [0x40] = .ok (.rti, [])
    ∧ (3 ≤ s.sp → ∃ p lo hi, s.stack[s.sp - 1]? = some p ∧ s.stack[s.sp - 2]? = some lo ∧ s.stack[s.sp - 3]? = some hi
        ∧ exec .rti s = .next
          { s with flags := Flags.unpack p, sp := s.sp - 3, pc := BitVec.ofNat 16 (hi.toNat * 256 + lo.toNat) })
    ∧ (s.sp < 3 → exec .rti s = .fault (.stackFault .pop))

/-- PHA pushes A, PHP pushes Pack with the live B; no flag changes; a full stack faults (R260, R261). -/
def Obligations.PhaAndPhpPushOneByte : Prop :=
  ∀ s : State, s.Inv →
    decode [0x48] = .ok (.pha, []) ∧ decode [0x08] = .ok (.php, [])
    ∧ (s.sp < s.stackCapacity → exec .pha s = .next { s with stack := s.stack.set s.sp s.a, sp := s.sp + 1, pc := s.pc + 1 }
        ∧ exec .php s = .next { s with stack := s.stack.set s.sp s.flags.pack, sp := s.sp + 1, pc := s.pc + 1 })
    ∧ (s.sp = s.stackCapacity → exec .pha s = .fault (.stackFault .push) ∧ exec .php s = .fault (.stackFault .push))

/-- PLA pulls A and sets Z and N from it; PLP pulls all seven flags; an empty stack faults (R262, R263). -/
def Obligations.PlaAndPlpPullOneByte : Prop :=
  ∀ s : State, s.Inv →
    decode [0x68] = .ok (.pla, []) ∧ decode [0x28] = .ok (.plp, [])
    ∧ (0 < s.sp → ∃ v, s.stack[s.sp - 1]? = some v
        ∧ exec .pla s = .next { s with a := v, flags := s.flags.setZN v, sp := s.sp - 1, pc := s.pc + 1 }
        ∧ exec .plp s = .next { s with flags := Flags.unpack v, sp := s.sp - 1, pc := s.pc + 1 })
    ∧ (s.sp = 0 → exec .pla s = .fault (.stackFault .pop) ∧ exec .plp s = .fault (.stackFault .pop))

/-- CLC, CLD, CLI, CLV, SEC, SED, SEI write their one flag and nothing else but pc; NOP (0xEA only) writes nothing but pc (R270, R271, R272, R273, R274, R275, R276, R287). -/
def Obligations.FlagInstructionsWriteOneFlagAndNopNone : Prop :=
  ImpliedEffect 0x18 .clc (fun s => { s with flags := { s.flags with c := false } })
    ∧ ImpliedEffect 0xD8 .cld (fun s => { s with flags := { s.flags with d := false } })
    ∧ ImpliedEffect 0x58 .cli (fun s => { s with flags := { s.flags with i := false } })
    ∧ ImpliedEffect 0xB8 .clv (fun s => { s with flags := { s.flags with v := false } })
    ∧ ImpliedEffect 0x38 .sec (fun s => { s with flags := { s.flags with c := true } })
    ∧ ImpliedEffect 0xF8 .sed (fun s => { s with flags := { s.flags with d := true } })
    ∧ ImpliedEffect 0x78 .sei (fun s => { s with flags := { s.flags with i := true } })
    ∧ ImpliedEffect 0xEA .nop (fun s => s)
    ∧ ∀ (opc : Byte) (rest rest' : List Byte), decode (opc :: rest) = .ok (.nop, rest') → opc = 0xEA

/-- Each flag changes only by the instructions the flag table gives it (R40, R33, 10_state.md section 3). -/
def Obligations.FlagsChangeOnlyByTheirWriters : Prop :=
  ∀ (i : Instr) (s t : State), exec i s = .next t →
    let zn : List Mnemonic := [.lda, .ldx, .ldy, .tax, .tay, .txa, .tya, .tsx, .pla, .and, .ora, .eor, .inc, .dec, .inx, .iny,
      .dex, .dey, .asl, .lsr, .rol, .ror, .adc, .sbc, .cmp, .cpx, .cpy, .bit, .plp, .rti]
    (i.mnemonic ∉ zn → t.flags.z = s.flags.z ∧ t.flags.n = s.flags.n)
    ∧ (i.mnemonic ∉ [.adc, .sbc, .bit, .clv, .plp, .rti] → t.flags.v = s.flags.v)
    ∧ (i.mnemonic ∉ [.brk, .plp, .rti] → t.flags.b = s.flags.b)
    ∧ (i.mnemonic ∉ [.sed, .cld, .plp, .rti] → t.flags.d = s.flags.d)
    ∧ (i.mnemonic ∉ [.sei, .cli, .brk, .plp, .rti] → t.flags.i = s.flags.i)
    ∧ (i.mnemonic ∉ [.adc, .sbc, .cmp, .cpx, .cpy, .asl, .lsr, .rol, .ror, .clc, .sec, .plp, .rti] →
        t.flags.c = s.flags.c)

/-- A, X and Y change only by the instructions the register rules name (R21, R22, R23, 10_state.md section 1). -/
def Obligations.RegistersChangeOnlyByTheirWriters : Prop :=
  ∀ (i : Instr) (s t : State), exec i s = .next t →
    (i.mnemonic ∉ [.lda, .txa, .tya, .pla, .adc, .sbc, .and, .ora, .eor] → i.mode ≠ .accumulator → t.a = s.a)
    ∧ (i.mnemonic ∉ [.ldx, .tax, .tsx, .inx, .dex] → t.x = s.x)
    ∧ (i.mnemonic ∉ [.ldy, .tay, .iny, .dey] → t.y = s.y)

/-- sp and the stack array change only by the stack instructions, a pull or TXS keeps every entry, STACK_CAPACITY never changes (R49, R43, 10_state.md section 4). -/
def Obligations.StackChangesOnlyByStackInstructions : Prop :=
  ∀ (i : Instr) (s t : State), exec i s = .next t →
    t.stackCapacity = s.stackCapacity
    ∧ (i.mnemonic ∉ [.pha, .php, .jsr, .brk, .pla, .plp, .rts, .rti, .txs] → t.sp = s.sp)
    ∧ (i.mnemonic ∉ [.pha, .php, .jsr, .brk] → t.stack = s.stack)
    ∧ ∀ k, k < s.sp → t.stack[k]? = s.stack[k]?

/-- Memory is written only by stores and read-modify-write forms, and only at their effective address; MEM_LEN never changes (R70, R61, 96_test_vectors_faults.md section 3 (T12)). -/
def Obligations.MemoryChangesOnlyAtTheStoreAddress : Prop :=
  ∀ (i : Instr) (s t : State), exec i s = .next t →
    t.memLen = s.memLen
    ∧ (storedTo i = none → ∀ a, memRead t a = memRead s a)
    ∧ ∀ m, storedTo i = some m →
        ∃ ea, effectiveAddress s m = .ok ea ∧ ∀ a, a ≠ ea → memRead t a = memRead s a

/-- An instruction that does not write pc ends with pc advanced by its number of bytes (R27, R29, 10_state.md section 2). -/
def Obligations.PcAdvancesByLengthUnlessWritten : Prop :=
  ∀ (i : Instr) (s t : State), exec i s = .next t →
    (setsPc i s.flags = false → t.pc = s.pc + BitVec.ofNat 16 (encode i).length)
    ∧ (setsPc i s.flags = true ↔ i.mnemonic ∈ [.jmp, .jsr, .rts, .brk, .rti]
        ∨ (i.mnemonic = .bcc ∧ s.flags.c = false) ∨ (i.mnemonic = .bcs ∧ s.flags.c = true)
        ∨ (i.mnemonic = .bne ∧ s.flags.z = false) ∨ (i.mnemonic = .beq ∧ s.flags.z = true)
        ∨ (i.mnemonic = .bpl ∧ s.flags.n = false) ∨ (i.mnemonic = .bmi ∧ s.flags.n = true)
        ∨ (i.mnemonic = .bvc ∧ s.flags.v = false) ∨ (i.mnemonic = .bvs ∧ s.flags.v = true))

/-- D and I influence only PHP and BRK, which pack them: other writers end the same whatever the old value, the rest run the same and keep it (R35, R36, 10_state.md section 3). -/
def Obligations.DecimalAndInterruptFlagsAreInert : Prop :=
  ∀ (i : Instr) (s : State) (value : Bool),
    (i.mnemonic ∈ [.sed, .cld, .plp, .rti] → exec i (withD s value) = exec i s)
    ∧ (i.mnemonic ∈ [.sei, .cli, .plp, .rti] → exec i (withI s value) = exec i s)
    ∧ (i.mnemonic ∉ [.sed, .cld, .plp, .rti, .php, .brk] →
      (∀ t, exec i s = .next t → t.flags.d = s.flags.d ∧ exec i (withD s value) = .next (withD t value))
      ∧ ∀ f, exec i s = .fault f → exec i (withD s value) = .fault f)
    ∧ (i.mnemonic ∉ [.sei, .cli, .brk, .plp, .rti, .php] →
      (∀ t, exec i s = .next t → t.flags.i = s.flags.i ∧ exec i (withI s value) = .next (withI t value))
      ∧ ∀ f, exec i s = .fault f → exec i (withI s value) = .fault f)

/-- No instruction is refused; a stack fault comes only from the stack instructions of its kind; none is an illegal opcode (R290, R293, 60_exceptions.md section 1). -/
def Obligations.EveryInstructionCompletesOrRaisesItsFault : Prop :=
  ∀ (i : Instr) (s : State),
    (∀ r, exec i s ≠ .refused r)
    ∧ (∀ opc pc, exec i s ≠ .fault (.illegalOpcode opc pc))
    ∧ (exec i s = .fault (.stackFault .push) → i.mnemonic ∈ [.pha, .php, .jsr, .brk])
    ∧ (exec i s = .fault (.stackFault .pop) → i.mnemonic ∈ [.pla, .plp, .rts, .rti])
    ∧ (exec i s = .fault (.stackFault .txs) → i.mnemonic = .txs)
    ∧ ∀ a, exec i s = .fault (.outOfBoundsAccess a) → s.memLen ≤ a ∧ a < 65536

/-- With MEM_LEN = 65536 a step faults only for an illegal opcode at pc or for the stack (R64, R292, 60_exceptions.md section 1). -/
def Obligations.FullMemoryNeverFaultsOutOfBounds : Prop :=
  ∀ (s : State) (f : Fault), s.memLen = 65536 → step s = .fault f →
    (∃ op, f = .stackFault op) ∨ ∃ opc, f = .illegalOpcode opc s.pc ∧ memRead s s.pc = .ok opc

/-- When the bytes at pc decode to an instruction, the step is the meaning of that instruction (R26, R90, R91, 10_state.md section 2). -/
def Obligations.StepRunsTheDecodedInstruction : Prop :=
  ∀ (s : State) (bytes rest : List Byte) (i : Instr),
    (∀ k v, bytes[k]? = some v → memRead s (s.pc + BitVec.ofNat 16 k) = .ok v) →
    decode bytes = .ok (i, rest) → step s = exec i s

/-- An unbound pc, an illegal opcode byte, and an unbound operand byte fault in this order, used or not (R25, R93, R110, R291, R295). -/
def Obligations.FetchFaultsInStepOrder : Prop :=
  ∀ s : State,
    (s.memLen ≤ s.pc.toNat → step s = .fault (.outOfBoundsAccess s.pc.toNat))
    ∧ (∀ opc ∈ illegalBytes, memRead s s.pc = .ok opc → step s = .fault (.illegalOpcode opc s.pc))
    ∧ ∀ (i : Instr) (opc : Byte), (encode i)[0]? = some opc → memRead s s.pc = .ok opc →
      (2 ≤ (encode i).length → s.memLen ≤ (s.pc + 1).toNat → step s = .fault (.outOfBoundsAccess (s.pc + 1).toNat))
      ∧ (3 ≤ (encode i).length → (s.pc + 1).toNat < s.memLen → s.memLen ≤ (s.pc + 2).toNat →
          step s = .fault (.outOfBoundsAccess (s.pc + 2).toNat))

/-- After a faulting step the state is as before and the next step faults the same (R294, R296, R30, 60_exceptions.md section 1). -/
def Obligations.FaultingStepChangesNothingAndRepeats : Prop :=
  ∀ (s : State) (f : Fault), step s = .fault f →
    stateAfter s = s ∧ stepReport s = .fault f ∧ step (stateAfter s) = .fault f

/-- A completed step reports the instruction's byte count and whether it wrote pc (the form of the report is the model's, log entry 9) (R12, R29, R26, 00_scope.md section 4). -/
def Obligations.StepReportsLengthAndPcSet : Prop :=
  ∀ (s t : State) (i : Instr), fetch s = .ok i → exec i s = .next t →
    stepReport s = .ok t { bytesConsumed := (encode i).length, pcSet := setsPc i s.flags }

/-- run stops at once when told to, returns a fault with the state before it, and composes step by step (fuel is the model's, log entry 8) (R31, 10_state.md section 2). -/
def Obligations.RunAsksStopBeforeEachStep : Prop :=
  ∀ (stop : List Report → State → Bool) (n : Nat) (reports : List Report) (s : State),
    (stop reports s = true → run stop n reports s = .stopped s)
    ∧ (∀ f, stop reports s = false → step s = .fault f → run stop (n + 1) reports s = .faulted f s)
    ∧ (∀ t r, stop reports s = false → stepReport s = .ok t r →
        run stop (n + 1) reports s = run stop n (r :: reports) t)
    ∧ ∀ m, (∀ u, run stop m reports s ≠ .unfinished u) → run stop (m + n) reports s = run stop m reports s

/-- Decoding an encoded instruction gives it back, operands included, with the bytes after it (R90, R91, R108, 30_encoding.md section 3). -/
def Obligations.DecodeOfEncodeIsTheInstruction : Prop :=
  ∀ (i : Instr) (rest : List Byte), i.wellFormed = true → decode (encode i ++ rest) = .ok (i, rest)

/-- No byte of a decoded instruction is dropped: encoding what was decoded gives the bytes back (R91, R111, 30_encoding.md sections 1 and 3). -/
def Obligations.EncodeOfDecodeIsTheBytes : Prop :=
  (∀ (bytes rest : List Byte) (i : Instr), decode bytes = .ok (i, rest) → bytes = encode i ++ rest)
    ∧ ∀ i j : Instr, encode i = encode j → i = j

/-- The decoder rejects exactly the 105 listed opcode bytes, whatever follows, and executing one raises IllegalOpcode (R110). -/
def Obligations.IllegalBytesAreExactlyTheListed : Prop :=
  (∀ (opc : Byte) (rest : List Byte), decode (opc :: rest) = .error (.illegalOpcode opc) ↔ opc ∈ illegalBytes)
    ∧ illegalBytes.length = 105 ∧ illegalBytes.Nodup
    ∧ ∀ (s : State), ∀ opc ∈ illegalBytes, memRead s s.pc = .ok opc →
        step s = .fault (.illegalOpcode opc s.pc) ∧ stateAfter s = s

/-- Mnemonic, mode and length depend on the opcode byte only; the length is the mode's (R92). -/
def Obligations.OpcodeByteAloneFixesFormAndLength : Prop :=
  (∀ (opc : Byte) (r₁ r₂ rest₁ rest₂ : List Byte) (i₁ i₂ : Instr),
      decode (opc :: r₁) = .ok (i₁, rest₁) → decode (opc :: r₂) = .ok (i₂, rest₂) →
        i₁.mnemonic = i₂.mnemonic ∧ i₁.mode = i₂.mode ∧ i₁.length = i₂.length
        ∧ (opc :: r₁).length = i₁.length + rest₁.length)
    ∧ (∀ (opc b₁ b₂ : Byte), opc ∉ illegalBytes → ∃ i rest, decode [opc, b₁, b₂] = .ok (i, rest))
    ∧ (∀ i : Instr, i.length = i.mode.length)
    ∧ Mode.implied.length = 1 ∧ Mode.accumulator.length = 1 ∧ Mode.immediate.length = 2 ∧ Mode.zeroPage.length = 2
    ∧ Mode.zeroPageX.length = 2 ∧ Mode.zeroPageY.length = 2 ∧ Mode.absolute.length = 3 ∧ Mode.absoluteX.length = 3
    ∧ Mode.absoluteY.length = 3 ∧ Mode.indirect.length = 3 ∧ Mode.indirectX.length = 2 ∧ Mode.indirectY.length = 2
    ∧ Mode.relative.length = 2

/-- Bytes written out from the encoding tables decode to the instructions they stand for: the 13 of the assembler table, one of every mode, and one of every family (R108, R114, 30_encoding.md section 5). -/
def Obligations.WrittenBytesDecodeToTheirInstructions : Prop :=
  (decode [0x18] = .ok (.clc, []) ∧ decode [0x0A] = .ok (.aslAcc, []) ∧ decode [0xA9, 0x05] = .ok (.ldaImm 0x05, [])
      ∧ decode [0xA5, 0x10] = .ok (.ldaZp 0x10, []) ∧ decode [0xB5, 0x10] = .ok (.ldaZpx 0x10, [])
      ∧ decode [0xB6, 0x10] = .ok (.ldxZpy 0x10, []) ∧ decode [0xAD, 0x34, 0x12] = .ok (.ldaAbs 0x1234, [])
      ∧ decode [0xBD, 0x34, 0x12] = .ok (.ldaAbsx 0x1234, []) ∧ decode [0xB9, 0x34, 0x12] = .ok (.ldaAbsy 0x1234, [])
      ∧ decode [0x6C, 0x34, 0x12] = .ok (.jmpInd 0x1234, []) ∧ decode [0xA1, 0x10] = .ok (.ldaIndx 0x10, [])
      ∧ decode [0xB1, 0x10] = .ok (.ldaIndy 0x10, []) ∧ decode [0xD0, 0xEE] = .ok (.bne 0xEE, []))
    ∧ decode [0x91, 0x20] = .ok (.staIndy 0x20, []) ∧ decode [0xAA] = .ok (.tax, []) ∧ decode [0xBA] = .ok (.tsx, [])
    ∧ decode [0x69, 0x01] = .ok (.adcImm 0x01, []) ∧ decode [0xE9, 0x01] = .ok (.sbcImm 0x01, [])
    ∧ decode [0x49, 0x0F] = .ok (.eorImm 0x0F, []) ∧ decode [0x2C, 0x40, 0x02] = .ok (.bitAbs 0x0240, [])
    ∧ decode [0xC9, 0x05] = .ok (.cmpImm 0x05, []) ∧ decode [0x6E, 0x00, 0x03] = .ok (.rorAbs 0x0300, [])
    ∧ decode [0xFE, 0x00, 0x01] = .ok (.incAbsx 0x0100, []) ∧ decode [0xCA] = .ok (.dex, [])
    ∧ decode [0x20, 0x00, 0x10] = .ok (.jsrAbs 0x1000, []) ∧ decode [0x60] = .ok (.rts, []) ∧ decode [0x00] = .ok (.brk, [])
    ∧ decode [0x40] = .ok (.rti, []) ∧ decode [0x48] = .ok (.pha, []) ∧ decode [0x28] = .ok (.plp, [])
    ∧ decode [0xEA] = .ok (.nop, [])

/-- JSR then RTS: pc behind the JSR, sp, registers, flags and memory as before (R241, R242, 96_test_vectors_faults.md section 3 (T6)). -/
def Obligations.JsrThenRtsReturnsBehindTheCall : Prop :=
  ∀ (s : State) (w : Word), s.Inv → s.sp + 2 ≤ s.stackCapacity →
    memRead s s.pc = .ok 0x20 → memRead s (s.pc + 1) = .ok (lo8 w) → memRead s (s.pc + 2) = .ok (hi8 w) →
    memRead s w = .ok 0x60 →
    ∃ t : State, Host.Core.run core 2 s = .next t ∧ t = { s with pc := s.pc + 3, stack := t.stack }
      ∧ ∀ k, k < s.sp → t.stack[k]? = s.stack[k]?

/-- PHP then PLP restores every flag and sp; BRK then RTI resumes at pc + 2 with the flags as pushed, B set (R39, R261, R263, R301). -/
def Obligations.PushedStatusIsRestoredWhole : Prop :=
  ∀ s : State, s.Inv →
    (s.sp < s.stackCapacity → memRead s s.pc = .ok 0x08 → memRead s (s.pc + 1) = .ok 0x28 →
      ∃ t : State, Host.Core.run core 2 s = .next t ∧ t = { s with pc := s.pc + 2, stack := t.stack })
    ∧ ∀ handler, s.sp + 3 ≤ s.stackCapacity → memRead s s.pc = .ok 0x00 → memRead16 s 0xFFFE = .ok handler →
      memRead s handler = .ok 0x40 →
      ∃ t : State, Host.Core.run core 2 s = .next t
        ∧ t = { s with pc := s.pc + 2, flags := { s.flags with b := true }, stack := t.stack }
end

