-- ==== Sys2Proof/Laws/State.lean ====
section
/-! SUPPORT. One lemma per field per register update, so that no later proof unfolds one. -/

namespace Sys2Proof.Config

@[simp] theorem stackCapacity_eq : stackCapacity = 128 := rfl
@[simp] theorem addressSpace_eq : addressSpace = 65536 := rfl

end Sys2Proof.Config

namespace Sys2Proof.Machine

variable (s : State) (r : Reg) (v : Byte) (f : Flags) (target : Word) (len : Nat)

@[simp] theorem State.setReg_a_a : (s.setReg .a v).a = v := rfl
@[simp] theorem State.setReg_a_x : (s.setReg .a v).x = s.x := rfl
@[simp] theorem State.setReg_a_y : (s.setReg .a v).y = s.y := rfl
@[simp] theorem State.setReg_x_a : (s.setReg .x v).a = s.a := rfl
@[simp] theorem State.setReg_x_x : (s.setReg .x v).x = v := rfl
@[simp] theorem State.setReg_x_y : (s.setReg .x v).y = s.y := rfl
@[simp] theorem State.setReg_y_a : (s.setReg .y v).a = s.a := rfl
@[simp] theorem State.setReg_y_x : (s.setReg .y v).x = s.x := rfl
@[simp] theorem State.setReg_y_y : (s.setReg .y v).y = v := rfl
@[simp] theorem State.setReg_pc : (s.setReg r v).pc = s.pc := by cases r <;> rfl
@[simp] theorem State.setReg_flags : (s.setReg r v).flags = s.flags := by cases r <;> rfl
@[simp] theorem State.setReg_sp : (s.setReg r v).sp = s.sp := by cases r <;> rfl
@[simp] theorem State.setReg_stack : (s.setReg r v).stack = s.stack := by cases r <;> rfl
@[simp] theorem State.setReg_stackCapacity : (s.setReg r v).stackCapacity = s.stackCapacity := by cases r <;> rfl
@[simp] theorem State.setReg_memLen : (s.setReg r v).memLen = s.memLen := by cases r <;> rfl
@[simp] theorem State.setReg_mem : (s.setReg r v).mem = s.mem := by cases r <;> rfl
@[simp] theorem State.getReg_setReg : (s.setReg r v).getReg r = v := by cases r <;> rfl

@[simp] theorem State.setFlags_a : (s.setFlags f).a = s.a := rfl
@[simp] theorem State.setFlags_x : (s.setFlags f).x = s.x := rfl
@[simp] theorem State.setFlags_y : (s.setFlags f).y = s.y := rfl
@[simp] theorem State.setFlags_pc : (s.setFlags f).pc = s.pc := rfl
@[simp] theorem State.setFlags_flags : (s.setFlags f).flags = f := rfl
@[simp] theorem State.setFlags_sp : (s.setFlags f).sp = s.sp := rfl
@[simp] theorem State.setFlags_stack : (s.setFlags f).stack = s.stack := rfl
@[simp] theorem State.setFlags_stackCapacity : (s.setFlags f).stackCapacity = s.stackCapacity := rfl
@[simp] theorem State.setFlags_memLen : (s.setFlags f).memLen = s.memLen := rfl
@[simp] theorem State.setFlags_mem : (s.setFlags f).mem = s.mem := rfl

@[simp] theorem State.setZN_a : (s.setZN v).a = s.a := rfl
@[simp] theorem State.setZN_x : (s.setZN v).x = s.x := rfl
@[simp] theorem State.setZN_y : (s.setZN v).y = s.y := rfl
@[simp] theorem State.setZN_pc : (s.setZN v).pc = s.pc := rfl
@[simp] theorem State.setZN_flags : (s.setZN v).flags = s.flags.setZN v := rfl
@[simp] theorem State.setZN_sp : (s.setZN v).sp = s.sp := rfl
@[simp] theorem State.setZN_stack : (s.setZN v).stack = s.stack := rfl
@[simp] theorem State.setZN_stackCapacity : (s.setZN v).stackCapacity = s.stackCapacity := rfl
@[simp] theorem State.setZN_memLen : (s.setZN v).memLen = s.memLen := rfl
@[simp] theorem State.setZN_mem : (s.setZN v).mem = s.mem := rfl

@[simp] theorem State.setPc_a : (s.setPc target).a = s.a := rfl
@[simp] theorem State.setPc_x : (s.setPc target).x = s.x := rfl
@[simp] theorem State.setPc_y : (s.setPc target).y = s.y := rfl
@[simp] theorem State.setPc_pc : (s.setPc target).pc = target := rfl
@[simp] theorem State.setPc_flags : (s.setPc target).flags = s.flags := rfl
@[simp] theorem State.setPc_sp : (s.setPc target).sp = s.sp := rfl
@[simp] theorem State.setPc_stack : (s.setPc target).stack = s.stack := rfl
@[simp] theorem State.setPc_stackCapacity : (s.setPc target).stackCapacity = s.stackCapacity := rfl
@[simp] theorem State.setPc_memLen : (s.setPc target).memLen = s.memLen := rfl
@[simp] theorem State.setPc_mem : (s.setPc target).mem = s.mem := rfl

@[simp] theorem State.advance_a : (s.advance len).a = s.a := rfl
@[simp] theorem State.advance_x : (s.advance len).x = s.x := rfl
@[simp] theorem State.advance_y : (s.advance len).y = s.y := rfl
@[simp] theorem State.advance_pc : (s.advance len).pc = s.pc + BitVec.ofNat 16 len := rfl
@[simp] theorem State.advance_flags : (s.advance len).flags = s.flags := rfl
@[simp] theorem State.advance_sp : (s.advance len).sp = s.sp := rfl
@[simp] theorem State.advance_stack : (s.advance len).stack = s.stack := rfl
@[simp] theorem State.advance_stackCapacity : (s.advance len).stackCapacity = s.stackCapacity := rfl
@[simp] theorem State.advance_memLen : (s.advance len).memLen = s.memLen := rfl
@[simp] theorem State.advance_mem : (s.advance len).mem = s.mem := rfl

/-- Two states are equal when every field is. -/
theorem State.eq_of_fields {s t : State} (ha : s.a = t.a) (hx : s.x = t.x) (hy : s.y = t.y) (hpc : s.pc = t.pc)
    (hf : s.flags = t.flags) (hsp : s.sp = t.sp) (hc : s.stackCapacity = t.stackCapacity) (hst : s.stack = t.stack)
    (hl : s.memLen = t.memLen) (hm : s.mem = t.mem) : s = t := by
  cases s; cases t; simp_all

end Sys2Proof.Machine
end

