-- ==== Sys2Proof/Laws/Memory.lean ====
section
/-! SUPPORT. Memory as data: read after write, the canonical form kept by every operation, and the access primitives inverted once (R62, R63). -/

namespace Sys2Proof.Machine

/-- In a memory canonical from `low` on, an address below `low` is not listed. -/
theorem Memory.read_of_lt {m : Memory} : ∀ {low addr : Nat}, m.wfFrom low = true → addr < low →
    m.read addr = Memory.unlisted := by
  induction m with
  | nil => intros; rfl
  | cons cell rest ih =>
    intro low addr hwf hlt
    simp only [Memory.wfFrom, Bool.and_eq_true, decide_eq_true_eq] at hwf
    obtain ⟨⟨hle, -⟩, hrest⟩ := hwf
    have hne : cell.1 ≠ addr := by omega
    simp only [Memory.read, hne, if_false]
    exact ih hrest (by omega)

/-- Canonical from a higher address on is canonical from a lower one. -/
theorem Memory.wfFrom_mono {m : Memory} {low high : Nat} (h : m.wfFrom high = true) (hle : low ≤ high) :
    m.wfFrom low = true := by
  cases m with
  | nil => rfl
  | cons cell rest =>
    simp only [Memory.wfFrom, Bool.and_eq_true, decide_eq_true_eq] at h ⊢
    exact ⟨⟨by omega, h.1.2⟩, h.2⟩

/-- A write leaves every other address alone. -/
theorem Memory.read_write_other {addr other : Nat} (v : Byte) (hne : other ≠ addr) :
    ∀ m : Memory, (m.write addr v).read other = m.read other := by
  intro m
  induction m with
  | nil =>
    by_cases hv : v = Memory.unlisted <;> simp [Memory.write, Memory.read, hv, Ne.symm hne]
  | cons cell rest ih =>
    simp only [Memory.write]
    split
    · by_cases hv : v = Memory.unlisted <;> simp [Memory.read, hv, Ne.symm hne]
    · split
      · rename_i heq
        by_cases hv : v = Memory.unlisted <;> simp [Memory.read, hv, ← heq, Ne.symm hne]
      · simp [Memory.read, ih]

theorem Memory.read_write_same_from {addr : Nat} (v : Byte) :
    ∀ (m : Memory) (low : Nat), m.wfFrom low = true → (m.write addr v).read addr = v := by
  intro m
  induction m with
  | nil =>
    intro low _
    by_cases hv : v = Memory.unlisted <;> simp [Memory.write, Memory.read, hv]
  | cons cell rest ih =>
    intro low hwf
    simp only [Memory.wfFrom, Bool.and_eq_true, decide_eq_true_eq] at hwf
    obtain ⟨⟨hle, hne⟩, hrest⟩ := hwf
    simp only [Memory.write]
    split
    · rename_i hlt
      by_cases hv : v = Memory.unlisted
      · have hc : cell.1 ≠ addr := by omega
        simp only [hv, if_true, Memory.read, hc, if_false]
        exact Memory.read_of_lt hrest (by omega)
      · simp [Memory.read, hv]
    · split
      · rename_i heq
        by_cases hv : v = Memory.unlisted
        · simp only [hv, if_true]
          exact Memory.read_of_lt hrest (by omega)
        · simp [Memory.read, hv]
      · rename_i h1 h2
        have hc : cell.1 ≠ addr := by omega
        simp only [Memory.read, hc, if_false]
        exact ih _ hrest

/-- A read after a write to the same address gives the byte written, in a canonical memory. -/
theorem Memory.read_write_same {m : Memory} (hwf : m.wf = true) (addr : Nat) (v : Byte) :
    (m.write addr v).read addr = v :=
  Memory.read_write_same_from v m 0 hwf

theorem Memory.wfFrom_write {addr : Nat} (v : Byte) :
    ∀ (m : Memory) (low : Nat), m.wfFrom low = true → low ≤ addr → (m.write addr v).wfFrom low = true := by
  intro m
  induction m with
  | nil =>
    intro low _ hle
    by_cases hv : v = Memory.unlisted <;> simp [Memory.write, Memory.wfFrom, hv, hle]
  | cons cell rest ih =>
    intro low hwf hle
    have hwf' := hwf
    simp only [Memory.wfFrom, Bool.and_eq_true, decide_eq_true_eq] at hwf'
    obtain ⟨⟨hlow, hne⟩, hrest⟩ := hwf'
    simp only [Memory.write]
    split
    · rename_i hlt
      by_cases hv : v = Memory.unlisted
      · simpa [hv] using hwf
      · simp only [hv, if_false, Memory.wfFrom, Bool.and_eq_true, decide_eq_true_eq]
        exact ⟨⟨hle, hv⟩, ⟨by omega, hne⟩, hrest⟩
    · split
      · rename_i h1 heq
        by_cases hv : v = Memory.unlisted
        · simp only [hv, if_true]
          exact Memory.wfFrom_mono hrest (by omega)
        · simp only [hv, if_false, Memory.wfFrom, Bool.and_eq_true, decide_eq_true_eq]
          exact ⟨⟨hle, hv⟩, by rw [heq]; exact hrest⟩
      · rename_i h1 h2
        simp only [Memory.wfFrom, Bool.and_eq_true, decide_eq_true_eq]
        exact ⟨⟨hlow, hne⟩, ih _ hrest (by omega)⟩

/-- A write keeps the canonical form. -/
theorem Memory.wf_write {m : Memory} (hwf : m.wf = true) (addr : Nat) (v : Byte) : (m.write addr v).wf = true :=
  Memory.wfFrom_write v m 0 hwf (Nat.zero_le _)

/-- Writing many bytes keeps the canonical form. -/
theorem Memory.wf_writeCells (cells : List Host.Cell) : ∀ {m : Memory}, m.wf = true → (m.writeCells cells).wf = true := by
  induction cells with
  | nil => intro m h; exact h
  | cons cell rest ih => intro m h; exact ih (Memory.wf_write h _ _)

/-- The addresses a write lists: its own, and those listed before. -/
theorem Memory.mem_write {addr : Nat} {v : Byte} {cell : Host.Cell} :
    ∀ {m : Memory}, cell ∈ m.write addr v → cell.1 = addr ∨ cell ∈ m := by
  intro m
  induction m with
  | nil =>
    intro h
    by_cases hv : v = Memory.unlisted <;> simp [Memory.write, hv] at h
    exact Or.inl (by rw [h])
  | cons c rest ih =>
    intro h
    simp only [Memory.write] at h
    split at h
    · by_cases hv : v = Memory.unlisted <;> simp only [hv, if_true, if_false] at h
      · exact Or.inr h
      · rcases List.mem_cons.1 h with rfl | h
        · exact Or.inl rfl
        · exact Or.inr h
    · split at h
      · by_cases hv : v = Memory.unlisted <;> simp only [hv, if_true, if_false] at h
        · exact Or.inr (List.mem_cons_of_mem _ h)
        · rcases List.mem_cons.1 h with rfl | h
          · exact Or.inl rfl
          · exact Or.inr (List.mem_cons_of_mem _ h)
      · rcases List.mem_cons.1 h with rfl | h
        · exact Or.inr List.mem_cons_self
        · exact (ih h).imp id (List.mem_cons_of_mem _)

/-- The addresses that writing many bytes lists. -/
theorem Memory.mem_writeCells {cell : Host.Cell} (cells : List Host.Cell) :
    ∀ {m : Memory}, cell ∈ m.writeCells cells → (∃ c ∈ cells, c.1 = cell.1) ∨ cell ∈ m := by
  induction cells with
  | nil => intro m h; exact Or.inr h
  | cons c rest ih =>
    intro m h
    rcases ih h with ⟨c', hc', he⟩ | hm
    · exact Or.inl ⟨c', List.mem_cons_of_mem _ hc', he⟩
    · rcases Memory.mem_write hm with ha | hm
      · exact Or.inl ⟨c, List.mem_cons_self, ha.symm⟩
      · exact Or.inr hm

/-- An address that none of the written bytes names reads as before. -/
theorem Memory.read_writeCells_other {addr : Nat} (cells : List Host.Cell) :
    ∀ {m : Memory}, (∀ c ∈ cells, c.1 ≠ addr) → (m.writeCells cells).read addr = m.read addr := by
  induction cells with
  | nil => intro m _; rfl
  | cons c rest ih =>
    intro m h
    have h' := ih (m := m.write c.1 c.2) fun c' hc' => h c' (List.mem_cons_of_mem _ hc')
    rw [Memory.writeCells, h', Memory.read_write_other _ (Ne.symm (h c List.mem_cons_self))]

/-- `memRead` says one of two things (R62). -/
theorem memRead_eq_ok_iff {s : State} {addr : Word} {v : Byte} :
    memRead s addr = .ok v ↔ addr.toNat < s.memLen ∧ s.mem.read addr.toNat = v := by
  unfold memRead
  split <;> simp_all

theorem memRead_eq_error_iff {s : State} {addr : Word} {f : Fault} :
    memRead s addr = .error f ↔ s.memLen ≤ addr.toNat ∧ f = .outOfBoundsAccess addr.toNat := by
  unfold memRead
  split
  · simp; omega
  · simp only [Except.error.injEq]
    constructor
    · rintro rfl; exact ⟨by omega, rfl⟩
    · rintro ⟨-, rfl⟩; rfl

/-- `memWrite` says one of two things (R63). -/
theorem memWrite_eq_ok_iff {s t : State} {addr : Word} {v : Byte} :
    memWrite s addr v = .ok t ↔ addr.toNat < s.memLen ∧ t = { s with mem := s.mem.write addr.toNat v } := by
  unfold memWrite
  split
  · simp only [Except.ok.injEq]
    constructor
    · rintro rfl; exact ⟨by assumption, rfl⟩
    · rintro ⟨-, rfl⟩; rfl
  · simp; omega

theorem memWrite_eq_error_iff {s : State} {addr : Word} {v : Byte} {f : Fault} :
    memWrite s addr v = .error f ↔ s.memLen ≤ addr.toNat ∧ f = .outOfBoundsAccess addr.toNat := by
  unfold memWrite
  split
  · simp; omega
  · simp only [Except.error.injEq]
    constructor
    · rintro rfl; exact ⟨by omega, rfl⟩
    · rintro ⟨-, rfl⟩; rfl

/-- Reading depends on MEM_LEN and on the memory only. -/
theorem memRead_congr {s t : State} (hl : t.memLen = s.memLen) (hm : t.mem = s.mem) (addr : Word) :
    memRead t addr = memRead s addr := by
  simp [memRead, hl, hm]

end Sys2Proof.Machine
end

