-- ==== Sys2Proof/Laws/Stack.lean ====
section
/-! SUPPORT. The stack primitives inverted once: all that a push and a pull can do (R46, R47). -/

namespace Sys2Proof.Machine

/-- A push that is made: there was room, and S and sp are as R46 says. -/
theorem stackPush_eq_ok_iff {s t : State} {v : Byte} :
    stackPush s v = .ok t ↔
      s.sp < s.stackCapacity ∧ t = { s with stack := s.stack.set s.sp v, sp := s.sp + 1 } := by
  unfold stackPush
  split
  · simp only [Except.ok.injEq]
    constructor
    · rintro rfl; exact ⟨by assumption, rfl⟩
    · rintro ⟨-, rfl⟩; rfl
  · simp_all

/-- A push that faults: the stack is full. -/
theorem stackPush_eq_error_iff {s : State} {v : Byte} {f : Fault} :
    stackPush s v = .error f ↔ s.stackCapacity ≤ s.sp ∧ f = .stackFault .push := by
  unfold stackPush
  split
  · exact ⟨fun h => (nomatch h), fun ⟨h, _⟩ => absurd h (by omega)⟩
  · simp only [Except.error.injEq]
    constructor
    · rintro rfl; exact ⟨by omega, rfl⟩
    · rintro ⟨-, rfl⟩; rfl

/-- A pull that is made: the byte on top, and sp one lower (R47). -/
theorem stackPop_eq_ok_iff {s t : State} {v : Byte} :
    stackPop s = .ok (v, t) ↔
      s.sp ≠ 0 ∧ s.stack[s.sp - 1]? = some v ∧ t = { s with sp := s.sp - 1 } := by
  unfold stackPop
  by_cases h : s.sp = 0
  · simp [h]
  · simp only [h, if_false]
    split
    · rename_i w hw
      simp only [hw, Except.ok.injEq, Prod.mk.injEq, Option.some.injEq]
      constructor
      · rintro ⟨rfl, rfl⟩; exact ⟨h, rfl, rfl⟩
      · rintro ⟨-, rfl, rfl⟩; exact ⟨rfl, rfl⟩
    · rename_i hw
      simp [hw]

/-- A pull that faults names the pull. -/
theorem stackPop_eq_error {s : State} {f : Fault} (h : stackPop s = .error f) : f = .stackFault .pop := by
  unfold stackPop at h
  split at h
  · exact (Except.error.inj h).symm
  · split at h
    · cases h
    · exact (Except.error.inj h).symm

end Sys2Proof.Machine
end

