-- ==== Sys2Proof/Laws/Operands.lean ====
section
/-! SUPPORT. One lemma per way of using an operand: all that a reading, a storing and a read-modify-write instruction can do. -/

namespace Sys2Proof.Machine

/-- `finish` is next exactly when nothing was raised. -/
theorem finish_eq_next_iff {r : Except Fault State} {t : State} : finish r = .next t ↔ r = .ok t := by
  cases r <;> simp [finish]

theorem finish_eq_fault_iff {r : Except Fault State} {f : Fault} : finish r = .fault f ↔ r = .error f := by
  cases r <;> simp [finish]

/-- An instruction that ends in `finish` is never refused. -/
theorem finish_ne_refused {r : Except Fault State} {q : Refusal} : finish r ≠ .refused q := by
  cases r <;> simp [finish]

/-- Two computations in sequence end well when both do. -/
theorem bind_eq_ok_iff {α β : Type} {x : Except Fault α} {k : α → Except Fault β} {b : β} :
    (x >>= k) = .ok b ↔ ∃ a, x = .ok a ∧ k a = .ok b := by
  cases x <;> simp [bind, Except.bind]

theorem bind_eq_error_iff {α β : Type} {x : Except Fault α} {k : α → Except Fault β} {f : Fault} :
    (x >>= k) = .error f ↔ x = .error f ∨ ∃ a, x = .ok a ∧ k a = .error f := by
  cases x <;> simp [bind, Except.bind]

/-- A reading instruction completes exactly when its operand is readable. -/
theorem readThen_eq_next_iff {src : Source} {s t : State} {effect : Byte → State} :
    readThen src s effect = .next t ↔ ∃ v, src.get s = .ok v ∧ t = (effect v).advance src.length := by
  simp only [readThen, finish_eq_next_iff, bind_eq_ok_iff, pure, Except.pure, Except.ok.injEq]
  exact ⟨fun ⟨v, h, e⟩ => ⟨v, h, e.symm⟩, fun ⟨v, h, e⟩ => ⟨v, h, e.symm⟩⟩

theorem readThen_eq_fault_iff {src : Source} {s : State} {effect : Byte → State} {f : Fault} :
    readThen src s effect = .fault f ↔ src.get s = .error f := by
  simp [readThen, finish_eq_fault_iff, bind_eq_error_iff, pure, Except.pure]

/-- A storing instruction completes exactly when its effective address is bound. -/
theorem storeByte_eq_next_iff {m : MemMode} {v : Byte} {s t : State} :
    storeByte m v s = .next t ↔
      ∃ ea, effectiveAddress s m = .ok ea ∧ ea.toNat < s.memLen ∧
        t = State.advance { s with mem := s.mem.write ea.toNat v } m.length := by
  simp only [storeByte, finish_eq_next_iff, bind_eq_ok_iff, pure, Except.pure, Except.ok.injEq, memWrite_eq_ok_iff]
  constructor
  · rintro ⟨ea, h, u, ⟨hlt, rfl⟩, rfl⟩; exact ⟨ea, h, hlt, rfl⟩
  · rintro ⟨ea, h, hlt, rfl⟩; exact ⟨ea, h, _, ⟨hlt, rfl⟩, rfl⟩

theorem storeByte_eq_fault_iff {m : MemMode} {v : Byte} {s : State} {f : Fault} :
    storeByte m v s = .fault f ↔
      effectiveAddress s m = .error f ∨
        ∃ ea, effectiveAddress s m = .ok ea ∧ s.memLen ≤ ea.toNat ∧ f = .outOfBoundsAccess ea.toNat := by
  simp [storeByte, finish_eq_fault_iff, bind_eq_error_iff, pure, Except.pure, memWrite_eq_error_iff]

/-- A read-modify-write instruction in memory completes exactly when its effective address is bound. -/
theorem modifyThen_mem_eq_next_iff {m : MemMode} {s t : State} {f : Byte → Byte × Flags} :
    modifyThen (.mem m) s f = .next t ↔
      ∃ ea, effectiveAddress s m = .ok ea ∧ ea.toNat < s.memLen ∧
        t = (State.setFlags { s with mem := s.mem.write ea.toNat (f (s.mem.read ea.toNat)).1 }
              (f (s.mem.read ea.toNat)).2).advance m.length := by
  simp only [modifyThen, finish_eq_next_iff, bind_eq_ok_iff, pure, Except.pure, Except.ok.injEq, memWrite_eq_ok_iff,
    memRead_eq_ok_iff]
  constructor
  · rintro ⟨ea, h, v, ⟨hlt, rfl⟩, u, ⟨-, rfl⟩, rfl⟩; exact ⟨ea, h, hlt, rfl⟩
  · rintro ⟨ea, h, hlt, rfl⟩; exact ⟨ea, h, _, ⟨hlt, rfl⟩, _, ⟨hlt, rfl⟩, rfl⟩

theorem modifyThen_mem_eq_fault_iff {m : MemMode} {s : State} {f : Byte → Byte × Flags} {e : Fault} :
    modifyThen (.mem m) s f = .fault e ↔
      effectiveAddress s m = .error e ∨
        ∃ ea, effectiveAddress s m = .ok ea ∧ s.memLen ≤ ea.toNat ∧ e = .outOfBoundsAccess ea.toNat := by
  simp only [modifyThen, finish_eq_fault_iff, bind_eq_error_iff, pure, Except.pure, memWrite_eq_error_iff,
    memRead_eq_error_iff, memRead_eq_ok_iff]
  constructor
  · rintro (h | ⟨ea, h, ⟨hle, rfl⟩ | ⟨v, ⟨hlt, -⟩, ⟨hle, -⟩ | ⟨u, -, hu⟩⟩⟩)
    · exact Or.inl h
    · exact Or.inr ⟨ea, h, hle, rfl⟩
    · omega
    · cases hu
  · rintro (h | ⟨ea, h, hle, rfl⟩)
    · exact Or.inl h
    · exact Or.inr ⟨ea, h, Or.inl ⟨hle, rfl⟩⟩

end Sys2Proof.Machine
end

