-- ==== Sys2Proof/Laws/Break.lean ====
section
/-! SUPPORT. The two-byte accesses, the software break and its return inverted once: all that each can do (R48, R67, R300, R301). -/

namespace Sys2Proof.Machine

/-- A 16-bit push that is made: there was room for two entries, and S and sp are as R48 says. -/
theorem stackPush16_eq_ok_iff {s t : State} {w : Word} :
    stackPush16 s w = .ok t ↔ s.sp + 2 ≤ s.stackCapacity ∧
      t = { s with stack := (s.stack.set s.sp (hi8 w)).set (s.sp + 1) (lo8 w), sp := s.sp + 2 } := by
  simp only [stackPush16, bind_eq_ok_iff, stackPush_eq_ok_iff]
  constructor
  · rintro ⟨u, ⟨h1, rfl⟩, h2, rfl⟩; exact ⟨h2, rfl⟩
  · rintro ⟨h, rfl⟩; exact ⟨_, ⟨by omega, rfl⟩, h, rfl⟩

/-- A 16-bit push that faults: no room for two entries. -/
theorem stackPush16_eq_error_iff {s : State} {w : Word} {f : Fault} :
    stackPush16 s w = .error f ↔ s.stackCapacity < s.sp + 2 ∧ f = .stackFault .push := by
  simp only [stackPush16, bind_eq_error_iff, stackPush_eq_error_iff, stackPush_eq_ok_iff]
  constructor
  · rintro (⟨h, rfl⟩ | ⟨u, ⟨h, rfl⟩, h2, rfl⟩)
    · exact ⟨by omega, rfl⟩
    · exact ⟨Nat.lt_succ_of_le h2, rfl⟩
  · rintro ⟨h, rfl⟩
    by_cases h1 : s.sp < s.stackCapacity
    · exact .inr ⟨_, ⟨h1, rfl⟩, Nat.le_of_lt_succ h, rfl⟩
    · exact .inl ⟨by omega, rfl⟩

/-- A 16-bit pull that is made: the low byte on top, the high byte under it, sp two lower (R48). -/
theorem stackPop16_eq_ok_iff {s t : State} {w : Word} :
    stackPop16 s = .ok (w, t) ↔ 2 ≤ s.sp ∧ ∃ lo hi, s.stack[s.sp - 1]? = some lo ∧ s.stack[s.sp - 2]? = some hi ∧
      w = wordOf hi lo ∧ t = { s with sp := s.sp - 2 } := by
  simp only [stackPop16, bind_eq_ok_iff, pure, Except.pure, Except.ok.injEq, Prod.exists, Prod.mk.injEq,
    stackPop_eq_ok_iff]
  constructor
  · rintro ⟨lo, u, ⟨h1, hlo, rfl⟩, hi, u', ⟨h2, hhi, rfl⟩, rfl, rfl⟩
    have h2' : s.sp - 1 ≠ 0 := h2
    exact ⟨by omega, lo, hi, hlo, hhi, rfl, rfl⟩
  · rintro ⟨h, lo, hi, hlo, hhi, rfl, rfl⟩
    exact ⟨lo, _, ⟨by omega, hlo, rfl⟩, hi, _, ⟨(by omega : s.sp - 1 ≠ 0), hhi, rfl⟩, rfl, rfl⟩

/-- A 16-bit pull that faults names the pull. -/
theorem stackPop16_eq_error {s : State} {f : Fault} (h : stackPop16 s = .error f) : f = .stackFault .pop := by
  rcases bind_eq_error_iff.1 h with h | ⟨⟨lo, u⟩, -, h⟩
  · exact stackPop_eq_error h
  · rcases bind_eq_error_iff.1 h with h | ⟨_, -, h⟩
    · exact stackPop_eq_error h
    · cases h

/-- A 16-bit read that is made: both bytes are bound, low byte first (R67). -/
theorem memRead16_eq_ok_iff {s : State} {addr w : Word} :
    memRead16 s addr = .ok w ↔ ∃ lo hi, memRead s addr = .ok lo ∧ memRead s (addr + 1) = .ok hi ∧ w = wordOf hi lo := by
  simp only [memRead16, bind_eq_ok_iff, pure, Except.pure, Except.ok.injEq]
  constructor
  · rintro ⟨lo, h1, hi, h2, rfl⟩; exact ⟨lo, hi, h1, h2, rfl⟩
  · rintro ⟨lo, hi, h1, h2, rfl⟩; exact ⟨lo, h1, hi, h2, rfl⟩

/-- A 16-bit read that faults: its first byte, or the second after the first (R67). -/
theorem memRead16_eq_error_iff {s : State} {addr : Word} {f : Fault} :
    memRead16 s addr = .error f ↔
      memRead s addr = .error f ∨ ∃ lo, memRead s addr = .ok lo ∧ memRead s (addr + 1) = .error f := by
  simp only [memRead16, bind_eq_error_iff, pure, Except.pure, reduceCtorEq, and_false, exists_false, or_false]

theorem memRead16_congr {s t : State} (hl : t.memLen = s.memLen) (hm : t.mem = s.mem) (addr : Word) :
    memRead16 t addr = memRead16 s addr := by
  simp only [memRead16, memRead_congr hl hm]

/-- The state a software break leaves, when its target is read (R300). -/
def brokenState (s : State) (target : Word) : State :=
  { s with
    stack := ((s.stack.set s.sp (hi8 (s.pc + 2))).set (s.sp + 1) (lo8 (s.pc + 2))).set (s.sp + 2)
      (Flags.pack { s.flags with b := true })
    sp := s.sp + 3
    flags := { s.flags with b := true, i := true }
    pc := target }

/-- A software break that is taken: room for three entries, and a readable vector (R300). -/
theorem takeBreak_eq_ok_iff {s t : State} :
    takeBreak s = .ok t ↔ s.sp + 3 ≤ s.stackCapacity ∧
      ∃ target, memRead16 s Config.brkVector = .ok target ∧ t = brokenState s target := by
  simp only [takeBreak, bind_eq_ok_iff, pure, Except.pure, Except.ok.injEq, stackPush16_eq_ok_iff, stackPush_eq_ok_iff]
  constructor
  · rintro ⟨s₁, ⟨h1, rfl⟩, s₃, ⟨h2, rfl⟩, target, h3, rfl⟩
    exact ⟨h2, target, by rw [← h3]; exact (memRead16_congr rfl rfl _).symm, rfl⟩
  · rintro ⟨h, target, h3, rfl⟩
    exact ⟨_, ⟨by omega, rfl⟩, _, ⟨h, rfl⟩, target, by rw [← h3]; exact memRead16_congr rfl rfl _, rfl⟩

/-- A software break that faults: no room, which comes first, or an unreadable vector (R295, R300). -/
theorem takeBreak_eq_error_iff {s : State} {f : Fault} :
    takeBreak s = .error f ↔ (s.stackCapacity < s.sp + 3 ∧ f = .stackFault .push) ∨
      (s.sp + 3 ≤ s.stackCapacity ∧ memRead16 s Config.brkVector = .error f) := by
  simp only [takeBreak, bind_eq_error_iff, pure, Except.pure, reduceCtorEq, and_false, exists_false, or_false,
    stackPush16_eq_ok_iff, stackPush_eq_ok_iff, stackPush16_eq_error_iff, stackPush_eq_error_iff]
  constructor
  · rintro (⟨h, rfl⟩ | ⟨s₁, ⟨h1, rfl⟩, ⟨h2, rfl⟩ | ⟨s₃, ⟨h2, rfl⟩, h3⟩⟩)
    · exact .inl ⟨by omega, rfl⟩
    · exact .inl ⟨Nat.lt_succ_of_le h2, rfl⟩
    · exact .inr ⟨h2, by rw [← h3]; exact (memRead16_congr rfl rfl _).symm⟩
  · rintro (⟨h, rfl⟩ | ⟨h, h3⟩)
    · by_cases h1 : s.sp + 2 ≤ s.stackCapacity
      · exact .inr ⟨_, ⟨h1, rfl⟩, .inl ⟨Nat.le_of_lt_succ h, rfl⟩⟩
      · exact .inl ⟨by omega, rfl⟩
    · exact .inr ⟨_, ⟨by omega, rfl⟩, .inr ⟨_, ⟨h, rfl⟩, by rw [← h3]; exact memRead16_congr rfl rfl _⟩⟩

/-- A return from the break that is made: three entries, the status on top, then the low and the high byte (R301). -/
theorem returnFromBreak_eq_ok_iff {s t : State} :
    returnFromBreak s = .ok t ↔ 3 ≤ s.sp ∧ ∃ p lo hi, s.stack[s.sp - 1]? = some p ∧ s.stack[s.sp - 2]? = some lo ∧
      s.stack[s.sp - 3]? = some hi ∧ t = { s with flags := Flags.unpack p, sp := s.sp - 3, pc := wordOf hi lo } := by
  simp only [returnFromBreak, bind_eq_ok_iff, pure, Except.pure, Except.ok.injEq, Prod.exists, stackPop_eq_ok_iff,
    stackPop16_eq_ok_iff]
  constructor
  · rintro ⟨p, s₁, ⟨h1, hp, rfl⟩, w, s₃, ⟨h2, lo, hi, hlo, hhi, rfl, rfl⟩, rfl⟩
    have h2' : 2 ≤ s.sp - 1 := h2
    exact ⟨by omega, p, lo, hi, hp, hlo, hhi, rfl⟩
  · rintro ⟨h, p, lo, hi, hp, hlo, hhi, rfl⟩
    exact ⟨p, _, ⟨by omega, hp, rfl⟩, _, _, ⟨(by omega : 2 ≤ s.sp - 1), lo, hi, hlo, hhi, rfl, rfl⟩, rfl⟩

/-- A return from the break that faults names the pull. -/
theorem returnFromBreak_eq_error {s : State} {f : Fault} (h : returnFromBreak s = .error f) : f = .stackFault .pop := by
  rcases bind_eq_error_iff.1 h with h | ⟨⟨p, u⟩, -, h⟩
  · exact stackPop_eq_error h
  · rcases bind_eq_error_iff.1 h with h | ⟨_, -, h⟩
    · exact stackPop16_eq_error h
    · cases h

end Sys2Proof.Machine
end

