-- ==== Sys2Proof/Laws/Decode.lean ====
section
/-! SUPPORT. Words and their bytes (R67), and the opcode table read once, byte by byte, against the encoder (R90, R91, R92). -/

namespace Sys2Proof

/-- A fact about bytes is a fact about the numbers below 256. -/
theorem byte_cases {P : Byte → Prop} (h : ∀ n, n < 256 → P (BitVec.ofNat 8 n)) (b : Byte) : P b := by
  simpa using h b.toNat b.isLt

theorem wordOf_toNat (hi lo : Byte) : (wordOf hi lo).toNat = hi.toNat * 256 + lo.toNat := by
  rw [wordOf, BitVec.toNat_append, ← Nat.shiftLeft_add_eq_or_of_lt lo.isLt, Nat.shiftLeft_eq]

theorem wordOf_eq_ofNat (hi lo : Byte) : wordOf hi lo = BitVec.ofNat 16 (hi.toNat * 256 + lo.toNat) := by
  apply BitVec.eq_of_toNat_eq
  have := hi.isLt
  have := lo.isLt
  rw [wordOf_toNat, BitVec.toNat_ofNat]
  omega

theorem lo8_toNat (w : Word) : (lo8 w).toNat = w.toNat % 256 := by simp [lo8]

theorem hi8_toNat (w : Word) : (hi8 w).toNat = w.toNat / 256 := by
  have := w.isLt
  simp [hi8, Nat.shiftRight_eq_div_pow]
  omega

/-- A word is its two bytes. -/
@[simp] theorem wordOf_hi8_lo8 (w : Word) : wordOf (hi8 w) (lo8 w) = w := by
  apply BitVec.eq_of_toNat_eq
  rw [wordOf_toNat, hi8_toNat, lo8_toNat]
  omega

@[simp] theorem lo8_wordOf (hi lo : Byte) : lo8 (wordOf hi lo) = lo := by
  apply BitVec.eq_of_toNat_eq
  have := lo.isLt
  rw [lo8_toNat, wordOf_toNat]
  omega

@[simp] theorem hi8_wordOf (hi lo : Byte) : hi8 (wordOf hi lo) = hi := by
  apply BitVec.eq_of_toNat_eq
  have := lo.isLt
  rw [hi8_toNat, wordOf_toNat]
  omega

/-- What a row of the table says, against the encoder: the opcode byte, the operand bytes, one form whatever the operand. -/
def RowFits (opc : Nat) : Shape → Prop
  | .one i => encode i = [BitVec.ofNat 8 opc]
  | .two mk => ∀ b, encode (mk b) = [BitVec.ofNat 8 opc, b] ∧ (mk b).form = (mk 0).form
  | .three mk => ∀ w, encode (mk w) = [BitVec.ofNat 8 opc, lo8 w, hi8 w] ∧ (mk w).form = (mk 0).form

/-- Every row of the table fits the encoder. -/
theorem rows_fit : ∀ row ∈ opcodeTable, RowFits row.1 row.2 := by
  intro row h
  simp only [opcodeTable, opcodeRows0, opcodeRows1, opcodeRows2, opcodeRows3, opcodeRows4, opcodeRows5, opcodeRows6, opcodeRows7, opcodeRows8, opcodeRows9, opcodeRowsA, opcodeRowsB, opcodeRowsC, opcodeRowsD, opcodeRowsE, opcodeRowsF,
    List.mem_append, List.mem_cons, List.not_mem_nil, or_false, or_assoc] at h
  repeat' rcases h with rfl | h
  all_goals first
    | rfl
    | exact fun _ => ⟨rfl, rfl⟩

theorem mem_of_lookup {k : Nat} {v : Shape} : ∀ {l : List (Nat × Shape)}, l.lookup k = some v → (k, v) ∈ l := by
  intro l
  induction l with
  | nil => intro h; cases h
  | cons row rest ih =>
    intro h
    rw [List.lookup_cons] at h
    split at h
    · rename_i heq
      cases h
      rw [beq_iff_eq.1 heq]
      exact List.mem_cons_self
    · exact List.mem_cons_of_mem _ (ih h)

/-- What the decoder finds under an opcode byte fits the encoder. -/
theorem decodeOpcode_fits {opc : Byte} {sh : Shape} (h : decodeOpcode opc = some sh) :
    match sh with
    | .one i => encode i = [opc]
    | .two mk => ∀ b, encode (mk b) = [opc, b] ∧ (mk b).form = (mk 0).form
    | .three mk => ∀ w, encode (mk w) = [opc, lo8 w, hi8 w] ∧ (mk w).form = (mk 0).form := by
  have h' : RowFits opc.toNat sh := rows_fit _ (mem_of_lookup h)
  cases sh <;> simpa [RowFits] using h'

end Sys2Proof
end

