-- ==== Sys2Proof/Laws/Shared.lean ====
section
/-! SUPPORT. One lemma per remaining shared operation: operand resolution, branches, pushes, pulls, the accumulator form of a read-modify-write, and `load`. -/

namespace Sys2Proof.Machine

/-- A pointer that cannot be read: one of its two zero-page bytes is not bound (R105, R106). -/
theorem zeroPagePointer_eq_error {s : State} {z : Byte} {f : Fault} (h : zeroPagePointer s z = .error f) :
    ∃ a : Word, s.memLen ≤ a.toNat ∧ f = .outOfBoundsAccess a.toNat := by
  simp only [zeroPagePointer, bind_eq_error_iff, pure, Except.pure, reduceCtorEq, and_false, exists_false, or_false,
    memRead_eq_error_iff] at h
  rcases h with h | ⟨_, _, h⟩
  · exact ⟨_, h⟩
  · exact ⟨_, h⟩

/-- A resolution that faults: an address at or above MEM_LEN was read (R94). -/
theorem effectiveAddress_eq_error {s : State} {m : MemMode} {f : Fault} (h : effectiveAddress s m = .error f) :
    ∃ a : Word, s.memLen ≤ a.toNat ∧ f = .outOfBoundsAccess a.toNat := by
  cases m with
  | zeroPage | zeroPageX | zeroPageY | absolute | absoluteX | absoluteY => cases h
  | indirectX b => exact zeroPagePointer_eq_error h
  | indirectY b =>
    rcases bind_eq_error_iff.1 h with h | ⟨_, -, h⟩
    · exact zeroPagePointer_eq_error h
    · cases h

/-- An operand read that faults: an address at or above MEM_LEN was read. -/
theorem get_eq_error {s : State} {src : Source} {f : Fault} (h : src.get s = .error f) :
    ∃ a : Word, s.memLen ≤ a.toNat ∧ f = .outOfBoundsAccess a.toNat := by
  cases src with
  | imm b => cases h
  | mem m =>
    rcases bind_eq_error_iff.1 h with h | ⟨_, -, h⟩
    · exact effectiveAddress_eq_error h
    · exact ⟨_, memRead_eq_error_iff.1 h⟩

/-- A read-modify-write of the accumulator always completes (R96). -/
theorem modifyThen_acc_eq {s : State} {f : Byte → Byte × Flags} :
    modifyThen .acc s f = .next { s with a := (f s.a).1, flags := (f s.a).2, pc := s.pc + 1 } := rfl

/-- A branch always completes: at its target, or behind itself (R220). -/
theorem branch_eq {cond : Bool} {b : Byte} {s : State} :
    branch cond b s = .next { s with pc := if cond then relativeTarget s b else s.pc + 2 } := by
  cases cond <;> rfl

/-- A push completes exactly when there is room (R46). -/
theorem pushThen_eq_next_iff {s t : State} {v : Byte} :
    pushThen s v = .next t ↔ s.sp < s.stackCapacity ∧
      t = { s with stack := s.stack.set s.sp v, sp := s.sp + 1, pc := s.pc + 1 } := by
  simp only [pushThen, finish_eq_next_iff, bind_eq_ok_iff, pure, Except.pure, Except.ok.injEq, stackPush_eq_ok_iff]
  constructor
  · rintro ⟨u, ⟨h, rfl⟩, rfl⟩; exact ⟨h, rfl⟩
  · rintro ⟨h, rfl⟩; exact ⟨_, ⟨h, rfl⟩, rfl⟩

theorem pushThen_eq_fault_iff {s : State} {v : Byte} {f : Fault} :
    pushThen s v = .fault f ↔ s.stackCapacity ≤ s.sp ∧ f = .stackFault .push := by
  simp [pushThen, finish_eq_fault_iff, bind_eq_error_iff, pure, Except.pure, stackPush_eq_error_iff]

/-- A pull completes exactly when there is an entry (R47). -/
theorem pullThen_eq_next_iff {s t : State} {effect : Byte → State → State} :
    pullThen s effect = .next t ↔ s.sp ≠ 0 ∧ ∃ v, s.stack[s.sp - 1]? = some v ∧
      t = (effect v { s with sp := s.sp - 1 }).advance 1 := by
  simp only [pullThen, finish_eq_next_iff, bind_eq_ok_iff, pure, Except.pure, Except.ok.injEq, Prod.exists,
    stackPop_eq_ok_iff]
  constructor
  · rintro ⟨v, u, ⟨h, hv, rfl⟩, rfl⟩; exact ⟨h, v, hv, rfl⟩
  · rintro ⟨h, v, hv, rfl⟩; exact ⟨v, _, ⟨h, hv, rfl⟩, rfl⟩

theorem pullThen_eq_fault {s : State} {effect : Byte → State → State} {f : Fault} (h : pullThen s effect = .fault f) :
    f = .stackFault .pop := by
  rcases bind_eq_error_iff.1 (finish_eq_fault_iff.1 h) with h | ⟨_, -, h⟩
  · exact stackPop_eq_error h
  · cases h

/-- A `load` that completes: the core was unbound, MEM_LEN is admissible, the image fits (R332). -/
theorem load_eq_next_iff {image : List Byte} {origin : Word} {given : Option Nat} {others : List Host.Cell} {s t : State} :
    load image origin given others s = .next t ↔
      s.memLen = 0 ∧ launchMemLen image origin given ≤ Config.addressSpace ∧ launchMemLen image origin given ≠ 0
        ∧ origin.toNat + image.length ≤ launchMemLen image origin given
        ∧ t = { s with
            memLen := launchMemLen image origin given
            mem := launchMemory image origin (launchMemLen image origin given) others
            pc := origin } := by
  simp only [load]
  split
  · rename_i h0; exact ⟨fun h => (nomatch h), fun h => absurd h.1 h0⟩
  · rename_i h0
    split
    · rename_i h1; exact ⟨fun h => (nomatch h), fun h => by omega⟩
    · rename_i h1
      split
      · rename_i h2; exact ⟨fun h => (nomatch h), fun h => by omega⟩
      · rename_i h2
        constructor
        · intro h
          cases h
          exact ⟨by omega, by omega, by omega, by omega, rfl⟩
        · rintro ⟨-, -, -, -, rfl⟩
          rfl

end Sys2Proof.Machine
end

