-- ==== Sys2Proof/Laws/Step.lean ====
section
/-! SUPPORT. A step is a fetch and then the meaning of what was fetched (R26). -/

namespace Sys2Proof.Machine

/-- When the fetch gives an instruction, the step is its meaning. -/
theorem step_of_fetch {s : State} {i : Instr} (h : fetch s = .ok i) : step s = exec i s := by
  simp [step, h]

/-- When the fetch raises a fault, the step is that fault. -/
theorem step_of_fetch_error {s : State} {f : Fault} (h : fetch s = .error f) : step s = .fault f := by
  simp [step, h]

/-- A step that completes ran the instruction that was fetched. -/
theorem step_eq_next_iff {s t : State} : step s = .next t ↔ ∃ i, fetch s = .ok i ∧ exec i s = .next t := by
  unfold step
  cases fetch s <;> simp

end Sys2Proof.Machine
end

