-- ==== Sys2Proof/Tests/Slice0.lean ====
section
/-! SUPPORT. The model's own tests: the well-formedness checks, the decoding of every encoding written out from the spec's encoding lines, at most two one-step vectors per instruction from the spec's tables, and a witness for every obligation that has hypotheses. Expected results come from the spec, named at each test. -/

set_option maxRecDepth 4000

namespace Sys2Proof.Tests

open Sys2Proof Sys2Proof.Machine Sys2Proof.Claims

/-! ### Helpers -/

/-- The bytes are exactly one instruction, this one, and it encodes to them. -/
def written (bytes : List Byte) (i : Instr) : Bool :=
  (match decode bytes with
    | .ok (j, []) => j == i
    | _ => false) && encode i == bytes && i.wellFormed

/-- The constructed core with memory bound, cells and program bytes placed, and pc at the program (the conventions of
95_test_vectors.md). -/
def probeAt (pc : Word) (memLen : Nat) (bytes : List Byte) (cells : List Host.Cell) : State :=
  { State.reset with
    pc := pc, memLen := memLen, mem := Memory.writeCells (Memory.writeCells [] cells) (imageCells pc.toNat bytes) }

/-- pc = 0x0200 and MEM_LEN = 768, as the tables have it unless a row says otherwise. -/
def probe (bytes : List Byte) (cells : List Host.Cell) : State := probeAt 0x0200 0x0300 bytes cells

/-- The state with stack entries set. -/
def withStack (s : State) (entries : List (Nat × Byte)) : State :=
  { s with stack := entries.foldl (fun st e => st.set e.1 e.2) s.stack }

/-- The state with a memory byte written. -/
def poke (s : State) (addr : Nat) (v : Byte) : Memory := s.mem.write addr v

/-- The step completes in this state with this report: every field is compared. -/
def ends (s t : State) (len : Nat) (pcSet : Bool) : Bool :=
  match stepReport s with
  | .ok u r => u == t && r == ⟨len, pcSet⟩
  | _ => false

/-- The step raises this fault and the state is as before. -/
def faults (s : State) (f : Fault) : Bool :=
  match stepReport s with
  | .fault g => g == f && stateAfter s == s
  | _ => false

def isNext (r : Result) : Bool :=
  match r with
  | .next _ => true
  | _ => false

def isFault (r : Result) (f : Fault) : Bool :=
  match r with
  | .fault g => g == f
  | _ => false

def okWith {α : Type} [DecidableEq α] (r : Except Fault α) (v : α) : Bool :=
  match r with
  | .ok w => w == v
  | .error _ => false

def failsWith {α : Type} (r : Except Fault α) (f : Fault) : Bool :=
  match r with
  | .ok _ => false
  | .error g => g == f

/-- The invariant as a check. -/
def invCheck (s : State) : Bool :=
  s.sp ≤ s.stackCapacity && s.stack.length == s.stackCapacity && Config.CapacityAdmissible s.stackCapacity
    && s.memLen ≤ Config.addressSpace && s.mem.wf && s.mem.all fun cell => cell.1 < s.memLen

/-- The check is the invariant. -/
theorem inv_of_check {s : State} (h : invCheck s = true) : s.Inv := by
  simp only [invCheck, Bool.and_eq_true, decide_eq_true_eq, beq_iff_eq, List.all_eq_true] at h
  exact ⟨h.1.1.1.1.1, h.1.1.1.1.2, h.1.1.1.2, h.1.1.2, h.1.2, h.2⟩

/-! ### Well-formedness: a term for each check that it refuses -/

/-- The accessor check (R109): an immediate has no `set`, an indirect target no `get`, the accumulator no target, and a mode
with an operand is no place for an instruction that uses none. -/
theorem test_wf_refuses_wrong_accessor :
    Mode.immediate.offers Mnemonic.sta.uses = false ∧ Mode.indirect.offers Mnemonic.lda.uses = false
      ∧ Mode.accumulator.offers Mnemonic.jmp.uses = false ∧ Mode.immediate.offers Mnemonic.nop.uses = false
      ∧ formWellFormed (.sta, .immediate) = false ∧ formWellFormed (.lda, .indirect) = false
      ∧ formWellFormed (.jmp, .accumulator) = false ∧ formWellFormed (.nop, .immediate) = false := by decide

/-- The table check (R108): the accessor would do, but the table has no such pair. -/
theorem test_wf_refuses_pair_without_row :
    Mode.zeroPageX.offers Mnemonic.ldx.uses = true ∧ formWellFormed (.ldx, .zeroPageX) = false
      ∧ Mode.absoluteY.offers Mnemonic.stx.uses = true ∧ formWellFormed (.stx, .absoluteY) = false
      ∧ Mode.indirect.offers Mnemonic.jsr.uses = true ∧ formWellFormed (.jsr, .indirect) = false
      ∧ Mode.absolute.offers Mnemonic.bne.uses = true ∧ formWellFormed (.bne, .absolute) = false
      ∧ Mode.accumulator.offers Mnemonic.inc.uses = true ∧ formWellFormed (.inc, .accumulator) = false := by decide

/-- 151 pairs are well formed, out of 56 mnemonics with their modes (R108). -/
theorem test_wf_accepts_the_table :
    formWellFormed (.ldx, .zeroPageY) = true ∧ formWellFormed (.jmp, .indirect) = true
      ∧ formWellFormed (.asl, .accumulator) = true ∧ opcodeTable.length = 151 := by decide

/-! ### Decoding: every encoding, bytes written out from the Encoding lines of the instruction rules; operand bytes 0x34 and, where there is a second, 0x12 -/

/-- R170. -/
theorem test_decode_adc :
    (written [0x69, 0x34] (.adcImm 0x34) && written [0x65, 0x34] (.adcZp 0x34)
      && written [0x75, 0x34] (.adcZpx 0x34) && written [0x6D, 0x34, 0x12] (.adcAbs 0x1234)
      && written [0x7D, 0x34, 0x12] (.adcAbsx 0x1234) && written [0x79, 0x34, 0x12] (.adcAbsy 0x1234)
      && written [0x61, 0x34] (.adcIndx 0x34) && written [0x71, 0x34] (.adcIndy 0x34)) = true := by decide

/-- R175. -/
theorem test_decode_and :
    (written [0x29, 0x34] (.andImm 0x34) && written [0x25, 0x34] (.andZp 0x34)
      && written [0x35, 0x34] (.andZpx 0x34) && written [0x2D, 0x34, 0x12] (.andAbs 0x1234)
      && written [0x3D, 0x34, 0x12] (.andAbsx 0x1234) && written [0x39, 0x34, 0x12] (.andAbsy 0x1234)
      && written [0x21, 0x34] (.andIndx 0x34) && written [0x31, 0x34] (.andIndy 0x34)) = true := by decide

/-- R200. -/
theorem test_decode_asl :
    (written [0x0A] .aslAcc && written [0x06, 0x34] (.aslZp 0x34)
      && written [0x16, 0x34] (.aslZpx 0x34) && written [0x0E, 0x34, 0x12] (.aslAbs 0x1234)
      && written [0x1E, 0x34, 0x12] (.aslAbsx 0x1234)) = true := by decide

/-- R221. -/
theorem test_decode_bcc :
    (written [0x90, 0x34] (.bcc 0x34)) = true := by decide

/-- R222. -/
theorem test_decode_bcs :
    (written [0xB0, 0x34] (.bcs 0x34)) = true := by decide

/-- R223. -/
theorem test_decode_beq :
    (written [0xF0, 0x34] (.beq 0x34)) = true := by decide

/-- R178. -/
theorem test_decode_bit :
    (written [0x24, 0x34] (.bitZp 0x34) && written [0x2C, 0x34, 0x12] (.bitAbs 0x1234)) = true := by decide

/-- R226. -/
theorem test_decode_bmi :
    (written [0x30, 0x34] (.bmi 0x34)) = true := by decide

/-- R224. -/
theorem test_decode_bne :
    (written [0xD0, 0x34] (.bne 0x34)) = true := by decide

/-- R225. -/
theorem test_decode_bpl :
    (written [0x10, 0x34] (.bpl 0x34)) = true := by decide

/-- R243. -/
theorem test_decode_brk :
    (written [0x00] .brk) = true := by decide

/-- R227. -/
theorem test_decode_bvc :
    (written [0x50, 0x34] (.bvc 0x34)) = true := by decide

/-- R228. -/
theorem test_decode_bvs :
    (written [0x70, 0x34] (.bvs 0x34)) = true := by decide

/-- R270. -/
theorem test_decode_clc :
    (written [0x18] .clc) = true := by decide

/-- R271. -/
theorem test_decode_cld :
    (written [0xD8] .cld) = true := by decide

/-- R272. -/
theorem test_decode_cli :
    (written [0x58] .cli) = true := by decide

/-- R273. -/
theorem test_decode_clv :
    (written [0xB8] .clv) = true := by decide

/-- R180. -/
theorem test_decode_cmp :
    (written [0xC9, 0x34] (.cmpImm 0x34) && written [0xC5, 0x34] (.cmpZp 0x34)
      && written [0xD5, 0x34] (.cmpZpx 0x34) && written [0xCD, 0x34, 0x12] (.cmpAbs 0x1234)
      && written [0xDD, 0x34, 0x12] (.cmpAbsx 0x1234) && written [0xD9, 0x34, 0x12] (.cmpAbsy 0x1234)
      && written [0xC1, 0x34] (.cmpIndx 0x34) && written [0xD1, 0x34] (.cmpIndy 0x34)) = true := by decide

/-- R181. -/
theorem test_decode_cpx :
    (written [0xE0, 0x34] (.cpxImm 0x34) && written [0xE4, 0x34] (.cpxZp 0x34)
      && written [0xEC, 0x34, 0x12] (.cpxAbs 0x1234)) = true := by decide

/-- R182. -/
theorem test_decode_cpy :
    (written [0xC0, 0x34] (.cpyImm 0x34) && written [0xC4, 0x34] (.cpyZp 0x34)
      && written [0xCC, 0x34, 0x12] (.cpyAbs 0x1234)) = true := by decide

/-- R211. -/
theorem test_decode_dec :
    (written [0xC6, 0x34] (.decZp 0x34) && written [0xD6, 0x34] (.decZpx 0x34)
      && written [0xCE, 0x34, 0x12] (.decAbs 0x1234) && written [0xDE, 0x34, 0x12] (.decAbsx 0x1234)) = true := by decide

/-- R214. -/
theorem test_decode_dex :
    (written [0xCA] .dex) = true := by decide

/-- R215. -/
theorem test_decode_dey :
    (written [0x88] .dey) = true := by decide

/-- R177. -/
theorem test_decode_eor :
    (written [0x49, 0x34] (.eorImm 0x34) && written [0x45, 0x34] (.eorZp 0x34)
      && written [0x55, 0x34] (.eorZpx 0x34) && written [0x4D, 0x34, 0x12] (.eorAbs 0x1234)
      && written [0x5D, 0x34, 0x12] (.eorAbsx 0x1234) && written [0x59, 0x34, 0x12] (.eorAbsy 0x1234)
      && written [0x41, 0x34] (.eorIndx 0x34) && written [0x51, 0x34] (.eorIndy 0x34)) = true := by decide

/-- R210. -/
theorem test_decode_inc :
    (written [0xE6, 0x34] (.incZp 0x34) && written [0xF6, 0x34] (.incZpx 0x34)
      && written [0xEE, 0x34, 0x12] (.incAbs 0x1234) && written [0xFE, 0x34, 0x12] (.incAbsx 0x1234)) = true := by decide

/-- R212. -/
theorem test_decode_inx :
    (written [0xE8] .inx) = true := by decide

/-- R213. -/
theorem test_decode_iny :
    (written [0xC8] .iny) = true := by decide

/-- R240. -/
theorem test_decode_jmp :
    (written [0x4C, 0x34, 0x12] (.jmpAbs 0x1234) && written [0x6C, 0x34, 0x12] (.jmpInd 0x1234)) = true := by decide

/-- R241. -/
theorem test_decode_jsr :
    (written [0x20, 0x34, 0x12] (.jsrAbs 0x1234)) = true := by decide

/-- R131. -/
theorem test_decode_lda :
    (written [0xA9, 0x34] (.ldaImm 0x34) && written [0xA5, 0x34] (.ldaZp 0x34)
      && written [0xB5, 0x34] (.ldaZpx 0x34) && written [0xAD, 0x34, 0x12] (.ldaAbs 0x1234)
      && written [0xBD, 0x34, 0x12] (.ldaAbsx 0x1234) && written [0xB9, 0x34, 0x12] (.ldaAbsy 0x1234)
      && written [0xA1, 0x34] (.ldaIndx 0x34) && written [0xB1, 0x34] (.ldaIndy 0x34)) = true := by decide

/-- R132. -/
theorem test_decode_ldx :
    (written [0xA2, 0x34] (.ldxImm 0x34) && written [0xA6, 0x34] (.ldxZp 0x34)
      && written [0xB6, 0x34] (.ldxZpy 0x34) && written [0xAE, 0x34, 0x12] (.ldxAbs 0x1234)
      && written [0xBE, 0x34, 0x12] (.ldxAbsy 0x1234)) = true := by decide

/-- R133. -/
theorem test_decode_ldy :
    (written [0xA0, 0x34] (.ldyImm 0x34) && written [0xA4, 0x34] (.ldyZp 0x34)
      && written [0xB4, 0x34] (.ldyZpx 0x34) && written [0xAC, 0x34, 0x12] (.ldyAbs 0x1234)
      && written [0xBC, 0x34, 0x12] (.ldyAbsx 0x1234)) = true := by decide

/-- R201. -/
theorem test_decode_lsr :
    (written [0x4A] .lsrAcc && written [0x46, 0x34] (.lsrZp 0x34)
      && written [0x56, 0x34] (.lsrZpx 0x34) && written [0x4E, 0x34, 0x12] (.lsrAbs 0x1234)
      && written [0x5E, 0x34, 0x12] (.lsrAbsx 0x1234)) = true := by decide

/-- R287. -/
theorem test_decode_nop :
    (written [0xEA] .nop) = true := by decide

/-- R176. -/
theorem test_decode_ora :
    (written [0x09, 0x34] (.oraImm 0x34) && written [0x05, 0x34] (.oraZp 0x34)
      && written [0x15, 0x34] (.oraZpx 0x34) && written [0x0D, 0x34, 0x12] (.oraAbs 0x1234)
      && written [0x1D, 0x34, 0x12] (.oraAbsx 0x1234) && written [0x19, 0x34, 0x12] (.oraAbsy 0x1234)
      && written [0x01, 0x34] (.oraIndx 0x34) && written [0x11, 0x34] (.oraIndy 0x34)) = true := by decide

/-- R260. -/
theorem test_decode_pha :
    (written [0x48] .pha) = true := by decide

/-- R261. -/
theorem test_decode_php :
    (written [0x08] .php) = true := by decide

/-- R262. -/
theorem test_decode_pla :
    (written [0x68] .pla) = true := by decide

/-- R263. -/
theorem test_decode_plp :
    (written [0x28] .plp) = true := by decide

/-- R202. -/
theorem test_decode_rol :
    (written [0x2A] .rolAcc && written [0x26, 0x34] (.rolZp 0x34)
      && written [0x36, 0x34] (.rolZpx 0x34) && written [0x2E, 0x34, 0x12] (.rolAbs 0x1234)
      && written [0x3E, 0x34, 0x12] (.rolAbsx 0x1234)) = true := by decide

/-- R203. -/
theorem test_decode_ror :
    (written [0x6A] .rorAcc && written [0x66, 0x34] (.rorZp 0x34)
      && written [0x76, 0x34] (.rorZpx 0x34) && written [0x6E, 0x34, 0x12] (.rorAbs 0x1234)
      && written [0x7E, 0x34, 0x12] (.rorAbsx 0x1234)) = true := by decide

/-- R244. -/
theorem test_decode_rti :
    (written [0x40] .rti) = true := by decide

/-- R242. -/
theorem test_decode_rts :
    (written [0x60] .rts) = true := by decide

/-- R171. -/
theorem test_decode_sbc :
    (written [0xE9, 0x34] (.sbcImm 0x34) && written [0xE5, 0x34] (.sbcZp 0x34)
      && written [0xF5, 0x34] (.sbcZpx 0x34) && written [0xED, 0x34, 0x12] (.sbcAbs 0x1234)
      && written [0xFD, 0x34, 0x12] (.sbcAbsx 0x1234) && written [0xF9, 0x34, 0x12] (.sbcAbsy 0x1234)
      && written [0xE1, 0x34] (.sbcIndx 0x34) && written [0xF1, 0x34] (.sbcIndy 0x34)) = true := by decide

/-- R274. -/
theorem test_decode_sec :
    (written [0x38] .sec) = true := by decide

/-- R275. -/
theorem test_decode_sed :
    (written [0xF8] .sed) = true := by decide

/-- R276. -/
theorem test_decode_sei :
    (written [0x78] .sei) = true := by decide

/-- R140. -/
theorem test_decode_sta :
    (written [0x85, 0x34] (.staZp 0x34) && written [0x95, 0x34] (.staZpx 0x34)
      && written [0x8D, 0x34, 0x12] (.staAbs 0x1234) && written [0x9D, 0x34, 0x12] (.staAbsx 0x1234)
      && written [0x99, 0x34, 0x12] (.staAbsy 0x1234) && written [0x81, 0x34] (.staIndx 0x34)
      && written [0x91, 0x34] (.staIndy 0x34)) = true := by decide

/-- R141. -/
theorem test_decode_stx :
    (written [0x86, 0x34] (.stxZp 0x34) && written [0x96, 0x34] (.stxZpy 0x34)
      && written [0x8E, 0x34, 0x12] (.stxAbs 0x1234)) = true := by decide

/-- R142. -/
theorem test_decode_sty :
    (written [0x84, 0x34] (.styZp 0x34) && written [0x94, 0x34] (.styZpx 0x34)
      && written [0x8C, 0x34, 0x12] (.styAbs 0x1234)) = true := by decide

/-- R150. -/
theorem test_decode_tax :
    (written [0xAA] .tax) = true := by decide

/-- R151. -/
theorem test_decode_tay :
    (written [0xA8] .tay) = true := by decide

/-- R156. -/
theorem test_decode_tsx :
    (written [0xBA] .tsx) = true := by decide

/-- R152. -/
theorem test_decode_txa :
    (written [0x8A] .txa) = true := by decide

/-- R157. -/
theorem test_decode_txs :
    (written [0x9A] .txs) = true := by decide

/-- R153. -/
theorem test_decode_tya :
    (written [0x98] .tya) = true := by decide

/-- The rows stand in rising order of their opcode byte, so no two rows share one (R91). -/
theorem test_table_rows_rise : (opcodeTable.zip opcodeTable.tail).all (fun p => p.1.1 < p.2.1) = true := by decide

/-- Rejected by name: no bytes, an operand cut off, an illegal byte (R110: 0x02 and 0x80). -/
theorem test_decode_rejects :
    decode [] = .error .noBytes ∧ decode [0xA9] = .error (.truncated 0xA9) ∧ decode [0xAD, 0x34] = .error (.truncated 0xAD)
      ∧ decode [0x02, 0x00] = .error (.illegalOpcode 0x02) ∧ decode [0x80] = .error (.illegalOpcode 0x80) := by
  refine ⟨rfl, rfl, rfl, rfl, rfl⟩

/-- The host's word numbering: the second byte is bits 15..8; bits the table does not give are 0. -/
theorem test_table_words :
    decodeTableWord 24 0x1234AD = some (.ldaAbs 0x1234) ∧ decodeTableWord 16 0x05A9 = some (.ldaImm 0x05)
      ∧ decodeTableWord 8 0xA9 = some (.ldaImm 0x00) ∧ decodeTableWord 8 0x00 = some .brk
      ∧ decodeTableWord 8 0xFF = none := by decide

/-- A placed word is what the next step runs. -/
theorem test_fetch_word_runs :
    ends (State.reset.withFetchWord 16 0x05A9)
      { State.reset.withFetchWord 16 0x05A9 with a := 0x05, pc := 0x0002 } 2 false = true := by decide

/-! ### One step: vectors of 95_test_vectors.md and 96_test_vectors_faults.md, under their names there -/

/-- M1: LDA $10 (R98). -/
theorem test_M1_ldaZp :
    (let s : State := probe [0xA5, 0x10] [(0x0010, 0x77)]
    ends s { s with a := 0x77, pc := 0x0202 } 2 false) = true := by decide

/-- M2: LDA $F0,X (R99: wraps in the zero page, not 0x0110). -/
theorem test_M2_ldaZpx :
    (let s : State := { probe [0xB5, 0xF0] [(0x0010, 0x77), (0x0110, 0x99)] with x := 0x20 }
    ends s { s with a := 0x77, pc := 0x0202 } 2 false) = true := by decide

/-- M5: LDA $0280 (R101: low byte first (R67)). -/
theorem test_M5_ldaAbs :
    (let s : State := probe [0xAD, 0x80, 0x02] [(0x0280, 0x11)]
    ends s { s with a := 0x11, pc := 0x0203 } 3 false) = true := by decide

/-- M7: LDA $FFF0,X (R102: sum wraps modulo 65536 to 0x0010). -/
theorem test_M7_ldaAbsx :
    (let s : State := { probe [0xBD, 0xF0, 0xFF] [(0x0010, 0x33)] with x := 0x20 }
    ends s { s with a := 0x33, pc := 0x0203 } 3 false) = true := by decide

/-- M8: LDA $0100,Y (R103). -/
theorem test_M8_ldaAbsy :
    (let s : State := { probe [0xB9, 0x00, 0x01] [(0x01FF, 0x44)] with y := 0xFF }
    ends s { s with a := 0x44, pc := 0x0203 } 3 false) = true := by decide

/-- M10: LDA ($FE,X) (R105: z=0xFF, high byte from 0x0000 (D8)). -/
theorem test_M10_ldaIndx :
    (let s : State := { probe [0xA1, 0xFE] [(0x0000, 0x02), (0x00FF, 0x80), (0x0100, 0x01), (0x0180, 0x99), (0x0280, 0x5A)] with x := 0x01 }
    ends s { s with a := 0x5A, pc := 0x0202 } 2 false) = true := by decide

/-- M13: LDA ($FF),Y (R106: high byte from 0x0000 (D8)). -/
theorem test_M13_ldaIndy :
    (let s : State := { probe [0xB1, 0xFF] [(0x0000, 0x02), (0x00FF, 0x7F), (0x0100, 0x01), (0x0180, 0x99), (0x0280, 0x67)] with y := 0x01 }
    ends s { s with a := 0x67, pc := 0x0202 } 2 false) = true := by decide

/-- M19: LDA #$80 (R97: immediate is not sign-extended). -/
theorem test_M19_ldaImm :
    (let s : State := probe [0xA9, 0x80] []
    ends s { s with a := 0x80, flags := ⟨true, false, false, false, false, false, false⟩, pc := 0x0202 } 2 false) = true := by decide

/-- M4: LDX $FF,Y (R100: wraps to 0x0001). -/
theorem test_M4_ldxZpy :
    (let s : State := { probe [0xB6, 0xFF] [(0x0001, 0x66), (0x0101, 0x99)] with y := 0x02 }
    ends s { s with x := 0x66, pc := 0x0202 } 2 false) = true := by decide

/-- L4: LDX $0100,Y (R132: indexed by Y). -/
theorem test_L4_ldxAbsy :
    (let s : State := { probe [0xBE, 0x00, 0x01] [(0x0105, 0x09)] with y := 0x05 }
    ends s { s with x := 0x09, pc := 0x0203 } 3 false) = true := by decide

/-- L3: LDY #$7F (R133: clears a stale N). -/
theorem test_L3_ldyImm :
    (let s : State := { probe [0xA0, 0x7F] [] with flags := ⟨true, false, false, false, false, false, false⟩ }
    ends s { s with y := 0x7F, flags := ⟨false, false, false, false, false, false, false⟩, pc := 0x0202 } 2 false) = true := by decide

/-- L5: LDY $0100,X (R133: indexed by X). -/
theorem test_L5_ldyAbsx :
    (let s : State := { probe [0xBC, 0x00, 0x01] [(0x0106, 0x0A)] with x := 0x06 }
    ends s { s with y := 0x0A, pc := 0x0203 } 3 false) = true := by decide

/-- M17: STA $0200,X (R140, R70: store does not read its (unspecified) target). -/
theorem test_M17_staAbsx :
    (let s : State := { probe [0x9D, 0x00, 0x02] [] with a := 0xAB, x := 0x80 }
    ends s { s with pc := 0x0203, mem := poke s 0x0280 0xAB } 3 false) = true := by decide

/-- L7: STA ($20),Y (R140, R106). -/
theorem test_L7_staIndy :
    (let s : State := { probe [0x91, 0x20] [(0x0020, 0x00), (0x0021, 0x01)] with a := 0x5C, y := 0x03 }
    ends s { s with pc := 0x0202, mem := poke s 0x0103 0x5C } 2 false) = true := by decide

/-- L9: STX $0250 (R141). -/
theorem test_L9_stxAbs :
    (let s : State := { probe [0x8E, 0x50, 0x02] [] with x := 0x80 }
    ends s { s with pc := 0x0203, mem := poke s 0x0250 0x80 } 3 false) = true := by decide

/-- L10: STY $FF,X (R142: zero-page wrap to 0x0000). -/
theorem test_L10_styZpx :
    (let s : State := { probe [0x94, 0xFF] [] with x := 0x01, y := 0x01 }
    ends s { s with pc := 0x0202, mem := poke s 0x0000 0x01 } 2 false) = true := by decide

/-- L11: TAX (R150). -/
theorem test_L11_tax :
    (let s : State := { probe [0xAA] [] with a := 0x80 }
    ends s { s with x := 0x80, flags := ⟨true, false, false, false, false, false, false⟩, pc := 0x0201 } 1 false) = true := by decide

/-- L12: TAY (R151). -/
theorem test_L12_tay :
    (let s : State := { probe [0xA8] [] with flags := ⟨true, false, false, false, false, false, false⟩ }
    ends s { s with flags := ⟨false, false, false, false, false, true, false⟩, pc := 0x0201 } 1 false) = true := by decide

/-- L13: TXA (R152). -/
theorem test_L13_txa :
    (let s : State := { probe [0x8A] [] with a := 0xFF, x := 0x7F, flags := ⟨true, false, false, false, false, false, false⟩ }
    ends s { s with a := 0x7F, flags := ⟨false, false, false, false, false, false, false⟩, pc := 0x0201 } 1 false) = true := by decide

/-- L14: TYA (R153). -/
theorem test_L14_tya :
    (let s : State := { probe [0x98] [] with a := 0x01 }
    ends s { s with a := 0x00, flags := ⟨false, false, false, false, false, true, false⟩, pc := 0x0201 } 1 false) = true := by decide

/-- L15: TSX (R156: X <- count of entries). -/
theorem test_L15_tsx :
    (let s : State := { withStack (probe [0xBA] []) [(0, 0x01), (1, 0x02), (2, 0x03)] with x := 0x55, sp := 3 }
    ends s { s with x := 0x03, pc := 0x0201 } 1 false) = true := by decide

/-- L19: TXS (R157: X = STACK_CAPACITY allowed). -/
theorem test_L19_txs :
    (let s : State := { probe [0x9A] [] with x := 0x80 }
    ends s { s with sp := 128, pc := 0x0201 } 1 false) = true := by decide

/-- L20: TXS (R157: X > STACK_CAPACITY). -/
theorem test_L20_txs :
    faults ({ withStack (probe [0x9A] []) [(0, 0x07)] with x := 0x81, sp := 1 }) (.stackFault .txs) = true := by decide

/-- A1: ADC $10 (R170 zp; D=1 is ignored (R36)). -/
theorem test_A1_adcZp :
    (let s : State := { probe [0x65, 0x10] [(0x0010, 0x01)] with a := 0x09, flags := ⟨false, false, false, true, false, false, false⟩ }
    ends s { s with a := 0x0A, pc := 0x0202 } 2 false) = true := by decide

/-- A2: ADC $0100,X (R170 absx). -/
theorem test_A2_adcAbsx :
    (let s : State := { probe [0x7D, 0x00, 0x01] [(0x0110, 0xFE)] with a := 0x01, x := 0x10, flags := ⟨false, false, false, false, false, false, true⟩ }
    ends s { s with a := 0x00, flags := ⟨false, false, false, false, false, true, true⟩, pc := 0x0203 } 3 false) = true := by decide

/-- A4: SBC $10 (R171 zp; D=1 ignored). -/
theorem test_A4_sbcZp :
    (let s : State := { probe [0xE5, 0x10] [(0x0010, 0x01)] with a := 0x10, flags := ⟨false, false, false, true, false, false, true⟩ }
    ends s { s with a := 0x0F, pc := 0x0202 } 2 false) = true := by decide

/-- A5: SBC $0100,Y (R171 absy; V cleared). -/
theorem test_A5_sbcAbsy :
    (let s : State := { probe [0xF9, 0x00, 0x01] [(0x0102, 0x00)] with y := 0x02, flags := ⟨false, true, false, false, false, false, true⟩ }
    ends s { s with flags := ⟨false, false, false, false, false, true, true⟩, pc := 0x0203 } 3 false) = true := by decide

/-- A6: AND #$0F (R175; C and V kept). -/
theorem test_A6_andImm :
    (let s : State := { probe [0x29, 0x0F] [] with a := 0xF0, flags := ⟨false, true, false, false, false, false, true⟩ }
    ends s { s with a := 0x00, flags := ⟨false, true, false, false, false, true, true⟩, pc := 0x0202 } 2 false) = true := by decide

/-- A7: AND $10,X (R175 zpx). -/
theorem test_A7_andZpx :
    (let s : State := { probe [0x35, 0x10] [(0x0011, 0x80)] with a := 0xFF, x := 0x01 }
    ends s { s with a := 0x80, flags := ⟨true, false, false, false, false, false, false⟩, pc := 0x0202 } 2 false) = true := by decide

/-- A8: ORA #$00 (R176: both zero). -/
theorem test_A8_oraImm :
    (let s : State := probe [0x09, 0x00] []
    ends s { s with flags := ⟨false, false, false, false, false, true, false⟩, pc := 0x0202 } 2 false) = true := by decide

/-- A9: ORA $0240 (R176 abs). -/
theorem test_A9_oraAbs :
    (let s : State := { probe [0x0D, 0x40, 0x02] [(0x0240, 0x80)] with a := 0x01 }
    ends s { s with a := 0x81, flags := ⟨true, false, false, false, false, false, false⟩, pc := 0x0203 } 3 false) = true := by decide

/-- A10: EOR #$5A (R177: A ^ A). -/
theorem test_A10_eorImm :
    (let s : State := { probe [0x49, 0x5A] [] with a := 0x5A }
    ends s { s with a := 0x00, flags := ⟨false, false, false, false, false, true, false⟩, pc := 0x0202 } 2 false) = true := by decide

/-- A11: EOR ($30,X) (R177 indx). -/
theorem test_A11_eorIndx :
    (let s : State := { probe [0x41, 0x30] [(0x0030, 0x50), (0x0031, 0x02), (0x0250, 0xF0)] with a := 0x0F }
    ends s { s with a := 0xFF, flags := ⟨true, false, false, false, false, false, false⟩, pc := 0x0202 } 2 false) = true := by decide

/-- A12: BIT $10 (R178: N,V from the operand; Z from the AND; A kept). -/
theorem test_A12_bitZp :
    (let s : State := probe [0x24, 0x10] [(0x0010, 0xC0)]
    ends s { s with flags := ⟨true, true, false, false, false, true, false⟩, pc := 0x0202 } 2 false) = true := by decide

/-- A13: BIT $0240 (R178 abs: clears stale N,V). -/
theorem test_A13_bitAbs :
    (let s : State := { probe [0x2C, 0x40, 0x02] [(0x0240, 0x3F)] with a := 0xFF, flags := ⟨true, true, false, false, false, false, true⟩ }
    ends s { s with flags := ⟨false, false, false, false, false, false, true⟩, pc := 0x0203 } 3 false) = true := by decide

/-- A18: CMP #$FF (R180: 0x00 - 0xFF: N from 0x01). -/
theorem test_A18_cmpImm :
    (let s : State := probe [0xC9, 0xFF] []
    ends s { s with pc := 0x0202 } 2 false) = true := by decide

/-- A20: CMP $10,X (R180 zpx). -/
theorem test_A20_cmpZpx :
    (let s : State := { probe [0xD5, 0x10] [(0x0012, 0x80)] with a := 0x7F, x := 0x02 }
    ends s { s with flags := ⟨true, false, false, false, false, false, false⟩, pc := 0x0202 } 2 false) = true := by decide

/-- A21: CPX $10 (R181 zp). -/
theorem test_A21_cpxZp :
    (let s : State := { probe [0xE4, 0x10] [(0x0010, 0x05)] with x := 0x05 }
    ends s { s with flags := ⟨false, false, false, false, false, true, true⟩, pc := 0x0202 } 2 false) = true := by decide

/-- A22: CPX $0240 (R181 abs). -/
theorem test_A22_cpxAbs :
    (let s : State := probe [0xEC, 0x40, 0x02] [(0x0240, 0x01)]
    ends s { s with flags := ⟨true, false, false, false, false, false, false⟩, pc := 0x0203 } 3 false) = true := by decide

/-- A23: CPY #$04 (R182: loop bound reached). -/
theorem test_A23_cpyImm :
    (let s : State := { probe [0xC0, 0x04] [] with y := 0x04 }
    ends s { s with flags := ⟨false, false, false, false, false, true, true⟩, pc := 0x0202 } 2 false) = true := by decide

/-- A24: CPY $10 (R182 zp). -/
theorem test_A24_cpyZp :
    (let s : State := { probe [0xC4, 0x10] [(0x0010, 0x7F)] with y := 0xFF }
    ends s { s with flags := ⟨true, false, false, false, false, false, true⟩, pc := 0x0202 } 2 false) = true := by decide

/-- H1: ASL A (R200). -/
theorem test_H1_aslAcc :
    (let s : State := { probe [0x0A] [] with a := 0xC0 }
    ends s { s with a := 0x80, flags := ⟨true, false, false, false, false, false, true⟩, pc := 0x0201 } 1 false) = true := by decide

/-- H3: ASL $0100,X (R200 absx). -/
theorem test_H3_aslAbsx :
    (let s : State := { probe [0x1E, 0x00, 0x01] [(0x0101, 0x01)] with x := 0x01, flags := ⟨false, false, false, false, false, false, true⟩ }
    ends s { s with flags := ⟨false, false, false, false, false, false, false⟩, pc := 0x0203, mem := poke s 0x0101 0x02 } 3 false) = true := by decide

/-- H4: LSR A (R201: N always 0). -/
theorem test_H4_lsrAcc :
    (let s : State := { probe [0x4A] [] with a := 0xFF, flags := ⟨true, false, false, false, false, false, false⟩ }
    ends s { s with a := 0x7F, flags := ⟨false, false, false, false, false, false, true⟩, pc := 0x0201 } 1 false) = true := by decide

/-- H5: LSR $10,X (R201 zpx). -/
theorem test_H5_lsrZpx :
    (let s : State := { probe [0x56, 0x10] [(0x0001, 0x01)] with x := 0xF1 }
    ends s { s with flags := ⟨false, false, false, false, false, true, true⟩, pc := 0x0202, mem := poke s 0x0001 0x00 } 2 false) = true := by decide

/-- H6: ROL A (R202: carry in to bit 0, bit 7 out). -/
theorem test_H6_rolAcc :
    (let s : State := { probe [0x2A] [] with a := 0x80, flags := ⟨false, false, false, false, false, false, true⟩ }
    ends s { s with a := 0x01, pc := 0x0201 } 1 false) = true := by decide

/-- H7: ROL $0240 (R202 abs). -/
theorem test_H7_rolAbs :
    (let s : State := probe [0x2E, 0x40, 0x02] [(0x0240, 0x55)]
    ends s { s with flags := ⟨true, false, false, false, false, false, false⟩, pc := 0x0203, mem := poke s 0x0240 0xAA } 3 false) = true := by decide

/-- H8: ROR A (R203: carry in to bit 7, bit 0 out). -/
theorem test_H8_rorAcc :
    (let s : State := { probe [0x6A] [] with a := 0x01, flags := ⟨false, false, false, false, false, false, true⟩ }
    ends s { s with a := 0x80, flags := ⟨true, false, false, false, false, false, true⟩, pc := 0x0201 } 1 false) = true := by decide

/-- H10: ROR $0100,X (R203 absx). -/
theorem test_H10_rorAbsx :
    (let s : State := { probe [0x7E, 0x00, 0x01] [(0x0102, 0xFE)] with x := 0x02, flags := ⟨false, false, false, false, false, false, true⟩ }
    ends s { s with flags := ⟨true, false, false, false, false, false, false⟩, pc := 0x0203, mem := poke s 0x0102 0xFF } 3 false) = true := by decide

/-- H11: INC $10 (R210: wraps; C kept). -/
theorem test_H11_incZp :
    (let s : State := { probe [0xE6, 0x10] [(0x0010, 0xFF)] with flags := ⟨false, false, false, false, false, false, true⟩ }
    ends s { s with flags := ⟨false, false, false, false, false, true, true⟩, pc := 0x0202, mem := poke s 0x0010 0x00 } 2 false) = true := by decide

/-- F25: INC $0300 (R210: RMW faults at its read; no write). -/
theorem test_F25_incAbs :
    faults ({ probe [0xEE, 0x00, 0x03] [] with flags := ⟨false, false, false, false, false, true, false⟩ }) (.outOfBoundsAccess 0x0300) = true := by decide

/-- H13: DEC $10 (R211: wraps). -/
theorem test_H13_decZp :
    (let s : State := probe [0xC6, 0x10] [(0x0010, 0x00)]
    ends s { s with flags := ⟨true, false, false, false, false, false, false⟩, pc := 0x0202, mem := poke s 0x0010 0xFF } 2 false) = true := by decide

/-- H14: DEC $10,X (R211 zpx). -/
theorem test_H14_decZpx :
    (let s : State := { probe [0xD6, 0x10] [(0x0011, 0x01)] with x := 0x01 }
    ends s { s with flags := ⟨false, false, false, false, false, true, false⟩, pc := 0x0202, mem := poke s 0x0011 0x00 } 2 false) = true := by decide

/-- H15: INX (R212). -/
theorem test_H15_inx :
    (let s : State := { probe [0xE8] [] with x := 0xFF }
    ends s { s with x := 0x00, flags := ⟨false, false, false, false, false, true, false⟩, pc := 0x0201 } 1 false) = true := by decide

/-- H16: INY (R213). -/
theorem test_H16_iny :
    (let s : State := { probe [0xC8] [] with y := 0x7F }
    ends s { s with y := 0x80, flags := ⟨true, false, false, false, false, false, false⟩, pc := 0x0201 } 1 false) = true := by decide

/-- H17: DEX (R214). -/
theorem test_H17_dex :
    (let s : State := probe [0xCA] []
    ends s { s with x := 0xFF, flags := ⟨true, false, false, false, false, false, false⟩, pc := 0x0201 } 1 false) = true := by decide

/-- H18: DEY (R215). -/
theorem test_H18_dey :
    (let s : State := { probe [0x88] [] with y := 0x80, flags := ⟨true, false, false, false, false, false, false⟩ }
    ends s { s with y := 0x7F, flags := ⟨false, false, false, false, false, false, false⟩, pc := 0x0201 } 1 false) = true := by decide

/-- B1: BCC $0212 (R221: taken). -/
theorem test_B1_bcc :
    (let s : State := probe [0x90, 0x10] []
    ends s { s with pc := 0x0212 } 2 true) = true := by decide

/-- B2: BCC $0212 (R221: not taken). -/
theorem test_B2_bcc :
    (let s : State := { probe [0x90, 0x10] [] with flags := ⟨false, false, false, false, false, false, true⟩ }
    ends s { s with pc := 0x0202 } 2 false) = true := by decide

/-- B3: BCS $0212 (R222: taken). -/
theorem test_B3_bcs :
    (let s : State := { probe [0xB0, 0x10] [] with flags := ⟨false, false, false, false, false, false, true⟩ }
    ends s { s with pc := 0x0212 } 2 true) = true := by decide

/-- B4: BCS $0212 (R222: not taken). -/
theorem test_B4_bcs :
    (let s : State := probe [0xB0, 0x10] []
    ends s { s with pc := 0x0202 } 2 false) = true := by decide

/-- B5: BEQ $0212 (R223: taken). -/
theorem test_B5_beq :
    (let s : State := { probe [0xF0, 0x10] [] with flags := ⟨false, false, false, false, false, true, false⟩ }
    ends s { s with pc := 0x0212 } 2 true) = true := by decide

/-- B6: BEQ $0212 (R223: not taken). -/
theorem test_B6_beq :
    (let s : State := probe [0xF0, 0x10] []
    ends s { s with pc := 0x0202 } 2 false) = true := by decide

/-- B17: BNE $0281 (R107: largest forward, pc+129). -/
theorem test_B17_bne :
    (let s : State := probe [0xD0, 0x7F] []
    ends s { s with pc := 0x0281 } 2 true) = true := by decide

/-- B18: BNE $0182 (R107: largest backward, pc-126). -/
theorem test_B18_bne :
    (let s : State := probe [0xD0, 0x80] []
    ends s { s with pc := 0x0182 } 2 true) = true := by decide

/-- B10: BPL $0212 (R225: not taken). -/
theorem test_B10_bpl :
    (let s : State := { probe [0x10, 0x10] [] with flags := ⟨true, false, false, false, false, false, false⟩ }
    ends s { s with pc := 0x0202 } 2 false) = true := by decide

/-- B23: BPL $FF92 (R107: wraps below 0x0000). -/
theorem test_B23_bpl :
    (let s : State := probeAt 0x0010 768 [0x10, 0x80] []
    ends s { s with pc := 0xFF92 } 2 true) = true := by decide

/-- B11: BMI $0212 (R226: taken). -/
theorem test_B11_bmi :
    (let s : State := { probe [0x30, 0x10] [] with flags := ⟨true, false, false, false, false, false, false⟩ }
    ends s { s with pc := 0x0212 } 2 true) = true := by decide

/-- B12: BMI $0212 (R226: not taken). -/
theorem test_B12_bmi :
    (let s : State := probe [0x30, 0x10] []
    ends s { s with pc := 0x0202 } 2 false) = true := by decide

/-- B13: BVC $0212 (R227: taken). -/
theorem test_B13_bvc :
    (let s : State := probe [0x50, 0x10] []
    ends s { s with pc := 0x0212 } 2 true) = true := by decide

/-- B14: BVC $0212 (R227: not taken). -/
theorem test_B14_bvc :
    (let s : State := { probe [0x50, 0x10] [] with flags := ⟨false, true, false, false, false, false, false⟩ }
    ends s { s with pc := 0x0202 } 2 false) = true := by decide

/-- B15: BVS $0212 (R228: taken). -/
theorem test_B15_bvs :
    (let s : State := { probe [0x70, 0x10] [] with flags := ⟨false, true, false, false, false, false, false⟩ }
    ends s { s with pc := 0x0212 } 2 true) = true := by decide

/-- B16: BVS $0212 (R228: not taken). -/
theorem test_B16_bvs :
    (let s : State := probe [0x70, 0x10] []
    ends s { s with pc := 0x0202 } 2 false) = true := by decide

/-- M15: JMP ($02FF) (R104: high byte from 0x0300, no page anomaly (D7); decoy at 0x0200 is the opcode byte 0x6C). -/
theorem test_M15_jmpInd :
    (let s : State := probeAt 0x0200 1024 [0x6C, 0xFF, 0x02] [(0x02FF, 0x34), (0x0300, 0x12)]
    ends s { s with pc := 0x1234 } 3 true) = true := by decide

/-- M16: JMP $1234 (R101, R240: target is the word; M[0x1234] is unbound and not accessed). -/
theorem test_M16_jmpAbs :
    (let s : State := probe [0x4C, 0x34, 0x12] []
    ends s { s with pc := 0x1234 } 3 true) = true := by decide

/-- G8: JSR $1000 (R241: JSR at 0xFFFD pushes 0xFFFF). -/
theorem test_G8_jsrAbs :
    (let s : State := probeAt 0xFFFD 65536 [0x20, 0x00, 0x10] []
    ends s { s with sp := 2, pc := 0x1000, stack := ((s.stack.set 0 0xFF).set 1 0xFF) } 3 true) = true := by decide

/-- F10: JSR $1000 (R241: first push would fit, second not; nothing pushed, S[127] untouched). -/
theorem test_F10_jsrAbs :
    faults ({ probe [0x20, 0x00, 0x10] [] with sp := 127 }) (.stackFault .push) = true := by decide

/-- G6: RTS (R242: 0xFFFF + 1 wraps). -/
theorem test_G6_rts :
    (let s : State := { withStack (probe [0x60] []) [(0, 0xFF), (1, 0xFF)] with sp := 2 }
    ends s { s with sp := 0, pc := 0x0000 } 1 true) = true := by decide

/-- F17: RTS (R242: one entry is not enough; sp stays 1). -/
theorem test_F17_rts :
    faults ({ withStack (probe [0x60] []) [(0, 0x12)] with sp := 1 }) (.stackFault .pop) = true := by decide

/-- G10: BRK (R243: pushed byte carries I as before (1), N, V; live B set). -/
theorem test_G10_brk :
    (let s : State := { withStack (probeAt 0x0300 65536 [0x00] [(0xFFFE, 0x34), (0xFFFF, 0x12)]) [(0, 0x09), (1, 0x09)] with flags := ⟨true, true, false, false, true, false, false⟩, sp := 2 }
    ends s { s with flags := ⟨true, true, true, false, true, false, false⟩, sp := 5, pc := 0x1234, stack := (((s.stack.set 2 0x03).set 3 0x02).set 4 0xF4) } 1 true) = true := by decide

/-- F12: BRK (R243, R295: StackFault comes before the vector read although the vector is unbound too). -/
theorem test_F12_brk :
    faults ({ probe [0x00] [] with sp := 126 }) (.stackFault .push) = true := by decide

/-- G11: RTI (R244: no +1; B restored from bit 4). -/
theorem test_G11_rti :
    (let s : State := { withStack (probe [0x40] []) [(0, 0x03), (1, 0x02), (2, 0x31)] with flags := ⟨false, false, false, false, true, false, false⟩, sp := 3 }
    ends s { s with flags := ⟨false, false, true, false, false, false, true⟩, sp := 0, pc := 0x0302 } 1 true) = true := by decide

/-- F18: RTI (R244: two entries are not enough; flags not loaded). -/
theorem test_F18_rti :
    faults ({ withStack (probe [0x40] []) [(0, 0x12), (1, 0xFF)] with sp := 2 }) (.stackFault .pop) = true := by decide

/-- K2: PHA (R260: at sp=127 the last slot). -/
theorem test_K2_pha :
    (let s : State := { probe [0x48] [] with a := 0x99, sp := 127 }
    ends s { s with sp := 128, pc := 0x0201, stack := (s.stack.set 127 0x99) } 1 false) = true := by decide

/-- F8: PHA (R46, R293; source S7). -/
theorem test_F8_pha :
    faults ({ probe [0x48] [] with a := 0x01, sp := 128 }) (.stackFault .push) = true := by decide

/-- K5: PHP (R261: live B=0 is pushed as 0 (D12)). -/
theorem test_K5_php :
    (let s : State := { probe [0x08] [] with flags := ⟨true, false, false, false, false, false, true⟩ }
    ends s { s with sp := 1, pc := 0x0201, stack := (s.stack.set 0 0xA1) } 1 false) = true := by decide

/-- F9: PHP (R261). -/
theorem test_F9_php :
    faults ({ probe [0x08] [] with sp := 128 }) (.stackFault .push) = true := by decide

/-- K6: PLA (R262: Z/N updated (C8)). -/
theorem test_K6_pla :
    (let s : State := { withStack (probe [0x68] []) [(0, 0x00)] with a := 0x55, flags := ⟨true, false, false, false, false, false, false⟩, sp := 1 }
    ends s { s with a := 0x00, flags := ⟨false, false, false, false, false, true, false⟩, sp := 0, pc := 0x0201 } 1 false) = true := by decide

/-- F15: PLA (R47: pop on empty). -/
theorem test_F15_pla :
    faults ({ probe [0x68] [] with a := 0x55 }) (.stackFault .pop) = true := by decide

/-- K8: PLP (R263: all seven, bit 5 ignored). -/
theorem test_K8_plp :
    (let s : State := { withStack (probe [0x28] []) [(0, 0xDF)] with sp := 1 }
    ends s { s with flags := ⟨true, true, true, true, true, true, true⟩, sp := 0, pc := 0x0201 } 1 false) = true := by decide

/-- F16: PLP (R263). -/
theorem test_F16_plp :
    faults ({ probe [0x28] [] with flags := ⟨false, false, false, false, false, false, true⟩ }) (.stackFault .pop) = true := by decide

/-- K11: CLC (R270). -/
theorem test_K11_clc :
    (let s : State := { probe [0x18] [] with flags := ⟨false, false, false, false, false, true, true⟩ }
    ends s { s with flags := ⟨false, false, false, false, false, true, false⟩, pc := 0x0201 } 1 false) = true := by decide

/-- K12: CLD (R271). -/
theorem test_K12_cld :
    (let s : State := { probe [0xD8] [] with flags := ⟨false, false, false, true, false, false, false⟩ }
    ends s { s with flags := ⟨false, false, false, false, false, false, false⟩, pc := 0x0201 } 1 false) = true := by decide

/-- K13: CLI (R272). -/
theorem test_K13_cli :
    (let s : State := { probe [0x58] [] with flags := ⟨false, false, false, false, true, false, false⟩ }
    ends s { s with flags := ⟨false, false, false, false, false, false, false⟩, pc := 0x0201 } 1 false) = true := by decide

/-- K14: CLV (R273). -/
theorem test_K14_clv :
    (let s : State := { probe [0xB8] [] with flags := ⟨true, true, false, false, false, false, false⟩ }
    ends s { s with flags := ⟨true, false, false, false, false, false, false⟩, pc := 0x0201 } 1 false) = true := by decide

/-- K15: SEC (R274). -/
theorem test_K15_sec :
    (let s : State := probe [0x38] []
    ends s { s with flags := ⟨false, false, false, false, false, false, true⟩, pc := 0x0201 } 1 false) = true := by decide

/-- K16: SED (R275). -/
theorem test_K16_sed :
    (let s : State := probe [0xF8] []
    ends s { s with flags := ⟨false, false, false, true, false, false, false⟩, pc := 0x0201 } 1 false) = true := by decide

/-- K17: SEI (R276). -/
theorem test_K17_sei :
    (let s : State := probe [0x78] []
    ends s { s with flags := ⟨false, false, false, false, true, false, false⟩, pc := 0x0201 } 1 false) = true := by decide

/-- K18: NOP (R287: only pc changes). -/
theorem test_K18_nop :
    (let s : State := { withStack (probe [0xEA] []) [(0, 0x04)] with a := 0x01, x := 0x02, y := 0x03, flags := ⟨true, false, false, false, false, false, true⟩, sp := 1 }
    ends s { s with pc := 0x0201 } 1 false) = true := by decide

/-- F5: (none) (R110: unofficial 2-byte NOP; its operand byte is not read). -/
theorem test_F5_illegal :
    faults (probe [0x80, 0x00] []) (.illegalOpcode 0x80 0x0200) = true := by decide

/-- F7: (none) (R64, R25: ... the next fetch faults; pc stays 0x0202). -/
theorem test_F7_unbound :
    faults (probeAt 0x0202 514 [] []) (.outOfBoundsAccess 0x0202) = true := by decide

/-- F31: (none) (R330). -/
theorem test_F31_unbound :
    faults (State.reset) (.outOfBoundsAccess 0x0000) = true := by decide

/-! ### Witnesses: for every obligation with hypotheses, a concrete state and operands that meet all of them together, clause by clause at boundary values -/

/-- A state after `load`, all 65536 addresses bound, pc at the top, the last byte set. -/
def full : State := probeAt 0xFFFF 65536 [0xEA] []

/-- A core with the largest STACK_CAPACITY, the source's other value (R8), and none of its stack entries zero. -/
def wide : State := construct 256 fun k => if k < 128 then 0x11 else 0x22

/-- O2: the smallest MEM_LEN, by default and given; the image's first byte. -/
theorem witness_O2_smallest :
    State.reset.memLen = 0 ∧ 1 = (none : Option Nat).getD ((0x0000 : Word).toNat + ([0xEA] : List Byte).length)
      ∧ (1 : Nat) ≤ 1 ∧ 1 ≤ 65536 ∧ (0x0000 : Word).toNat + ([0xEA] : List Byte).length ≤ 1
      ∧ ([0xEA] : List Byte)[0]? = some 0xEA := by decide

/-- O2: the largest MEM_LEN, an image at its end, and addresses before and after an image. -/
theorem witness_O2_largest :
    State.reset.memLen = 0 ∧ 65536 = (some 65536 : Option Nat).getD ((0xFFFF : Word).toNat + ([0xEA] : List Byte).length)
      ∧ (0xFFFF : Word).toNat + ([0xEA] : List Byte).length ≤ 65536 ∧ 0xFFFE < (0xFFFF : Word).toNat
      ∧ (0x0000 : Word).toNat + ([0xEA] : List Byte).length ≤ 65535 ∧ 65535 < 65536 := by decide

/-- O3: an image one byte too long for a given MEM_LEN, too long for the address space, one that just fits, and MEM_LEN 0
and 65537. -/
theorem witness_O3_clauses :
    State.reset.memLen = 0 ∧ (1 < (0x0001 : Word).toNat + ([0xEA] : List Byte).length)
      ∧ 65536 < (0xFFFF : Word).toNat + ([0xEA, 0xEA] : List Byte).length
      ∧ (0x0001 : Word).toNat + ([0xEA] : List Byte).length ≤ 2
      ∧ isFault (load [0xEA] 0x0001 (some 1) [] State.reset) (.outOfBoundsAccess 1) = true
      ∧ isFault (load [0xEA, 0xEA] 0xFFFF none [] State.reset) (.outOfBoundsAccess 65536) = true
      ∧ isNext (load [0xEA] 0x0001 (some 2) [] State.reset) = true
      ∧ (65536 < 65537 ∧ 0 < (probe [] []).memLen) := by decide

/-- O1: an entry of a constructed stack array, the last. -/
theorem witness_O1_entry : (255 < 256) ∧ wide.stack[255]? = some 0x22 ∧ wide.stack[256]? = none := by decide

/-- O4: the smallest and the largest STACK_CAPACITY, each with a state that meets the invariant. -/
theorem witness_O4_capacities :
    1 ≤ 1 ∧ 1 ≤ 256 ∧ 256 ≤ 256 ∧ invCheck (construct 1 fun _ => 0x11) = true ∧ invCheck wide = true := by decide

/-- O5: a load that completes, from a state that meets the invariant. -/
theorem witness_O5_load :
    invCheck State.reset = true ∧ isNext (load [0xEA] 0xFFFF none [(0x0000, 0x12)] State.reset) = true := by decide

/-- O6: a step that completes, from a state that meets the invariant: a store that unlists a byte, and a push of the last entry. -/
theorem witness_O6_step :
    invCheck (probe [0x85, 0x10] [(0x0010, 0x77)]) = true ∧ isNext (step (probe [0x85, 0x10] [(0x0010, 0x77)])) = true
      ∧ invCheck { probe [0x48] [] with sp := 127 } = true ∧ isNext (step { probe [0x48] [] with sp := 127 }) = true := by
  decide

/-- O7: the last bound address, the first unbound one, and a full memory. -/
theorem witness_O7_clauses :
    invCheck (probe [] []) = true ∧ (0x02FF : Word).toNat < (probe [] []).memLen
      ∧ (probe [] []).memLen ≤ (0x0300 : Word).toNat ∧ invCheck full = true ∧ full.memLen = 65536 := by decide

/-- O8: a read over the top of memory, a first byte unbound, a second byte unbound. -/
theorem witness_O8_clauses :
    okWith (memRead full 0xFFFF) 0xEA = true ∧ okWith (memRead full (BitVec.ofNat 16 ((0xFFFF : Word).toNat + 1))) 0x00 = true
      ∧ failsWith (memRead (probe [] []) 0x0300) (.outOfBoundsAccess 0x0300) = true
      ∧ okWith (memRead (probe [] [(0x02FF, 0x77)]) 0x02FF) 0x77 = true
      ∧ failsWith (memRead (probe [] []) (BitVec.ofNat 16 ((0x02FF : Word).toNat + 1))) (.outOfBoundsAccess 0x0300) = true := by
  decide

/-- O9: an instruction in ZeroPageY mode. -/
theorem witness_O9_zeroPageY :
    (Instr.ldxZpy 0xFF).mode = .zeroPageY ∧ MemMode.zeroPage 0xFF ∈ [MemMode.zeroPage 0xFF, .zeroPageX 0xFF, .zeroPageY 0xFF]
      ∧ MemMode.absoluteY 0xFFFF ∈ [MemMode.absolute 0xFFFF, .absoluteX 0xFFFF, .absoluteY 0xFFFF] := by decide

/-- O10: both pointer bytes read, at the wrap of the zero page; a low byte unbound; a high byte unbound (X = 1). -/
theorem witness_O10_clauses :
    (let s : State := { probe [] [(0x0000, 0x02), (0x00FF, 0x80)] with x := 0x01 }
    ((0xFE : Byte).toNat + s.x.toNat) % 256 == 255 && okWith (memRead s 0x00FF) 0x80
      && okWith (memRead s (BitVec.ofNat 16 ((255 + 1) % 256))) 0x02
      && failsWith (memRead { s with memLen := 0x0080 } (BitVec.ofNat 16 0x80)) (.outOfBoundsAccess 0x0080)
      && okWith (memRead { s with memLen := 0x0080 } (BitVec.ofNat 16 0x7F)) 0x00
      && failsWith (memRead { s with memLen := 0x0080 } (BitVec.ofNat 16 ((0x7F + 1) % 256))) (.outOfBoundsAccess 0x0080))
      = true := by decide

/-- O11: an effective address, and a pointer that cannot be read. -/
theorem witness_O11_clauses :
    okWith (effectiveAddress (probe [] []) (.absolute 0xFFFF)) 0xFFFF = true
      ∧ failsWith (effectiveAddress State.reset (.indirectY 0x10)) (.outOfBoundsAccess 0x0010) = true := by decide

/-- O12: 127 entries, 128, none, one; 255 and 256 where STACK_CAPACITY is 256. -/
theorem witness_O12_clauses :
    invCheck { probe [] [] with sp := 127 } = true ∧ 127 < (probe [] []).stackCapacity
      ∧ invCheck { probe [] [] with sp := 128 } = true ∧ 128 = (probe [] []).stackCapacity
      ∧ invCheck { wide with sp := 255 } = true ∧ 255 < wide.stackCapacity
      ∧ invCheck { wide with sp := 256 } = true ∧ 256 = wide.stackCapacity
      ∧ invCheck { probe [] [] with sp := 0 } = true ∧ invCheck { probe [] [] with sp := 1 } = true := by decide

/-- O13: the last two entries, and only one entry free. -/
theorem witness_O13_clauses :
    invCheck { probe [] [] with sp := 126 } = true ∧ 126 + 2 ≤ (probe [] []).stackCapacity
      ∧ invCheck { probe [] [] with sp := 127 } = true ∧ (probe [] []).stackCapacity < 127 + 2 := by decide

/-- O20: an operand of LDA, LDX and LDY that is read, at the last bound address, and one that is not. -/
theorem witness_O20_operands :
    (ldaForms 0x10 0x02FF).any (fun form => okWith (form.src.get (probe [] [(0x02FF, 0x77)])) 0x77) = true
      ∧ (ldaForms 0x10 0x0300).any (fun form => failsWith (form.src.get (probe [] [])) (.outOfBoundsAccess 0x0300)) = true
      ∧ (ldxForms 0x10 0x02FF).any (fun form => okWith (form.src.get (probe [] [(0x02FF, 0x77)])) 0x77) = true
      ∧ (ldxForms 0x10 0x0300).any (fun form => failsWith (form.src.get (probe [] [])) (.outOfBoundsAccess 0x0300)) = true
      ∧ (ldyForms 0x10 0x02FF).any (fun form => okWith (form.src.get (probe [] [(0x02FF, 0x77)])) 0x77) = true
      ∧ (ldyForms 0x10 0x0300).any (fun form => failsWith (form.src.get (probe [] [])) (.outOfBoundsAccess 0x0300)) = true := by
  decide

/-- O21: an address of STA, STX and STY that is bound, one that is not, and a pointer of STA that cannot be read. -/
theorem witness_O21_addresses :
    invCheck (probe [] []) = true ∧ (0x02FF : Word).toNat < (probe [] []).memLen
      ∧ (probe [] []).memLen ≤ (0x0300 : Word).toNat
      ∧ (staForms 0x10 0x02FF).any (fun form => okWith (effectiveAddress (probe [] []) form.mode) 0x02FF) = true
      ∧ (stxForms 0x10 0x02FF).any (fun form => okWith (effectiveAddress (probe [] []) form.mode) 0x02FF) = true
      ∧ (styForms 0x10 0x0300).any (fun form => okWith (effectiveAddress (probe [] []) form.mode) 0x0300) = true
      ∧ (staForms 0x10 0x0300).any (fun form => failsWith (effectiveAddress State.reset form.mode) (.outOfBoundsAccess 0x0010))
        = true := by decide

/-- O23: X at STACK_CAPACITY and one above; the largest X where STACK_CAPACITY is 256, and a full stack of 256 that TSX reads
as 0 (R156, R157). -/
theorem witness_O23_clauses :
    (0x80 : Byte).toNat ≤ ({ probe [] [] with x := 0x80 } : State).stackCapacity
      ∧ ({ probe [] [] with x := 0x81 } : State).stackCapacity < (0x81 : Byte).toNat
      ∧ wide.stackCapacity = 256 ∧ isNext (exec .txs { wide with x := 0xFF }) = true
      ∧ (match exec .tsx { wide with sp := 256, x := 0x77 } with
        | .next t => t.x == 0x00 && t.flags.z && t.sp == 256
        | _ => false) = true := by decide

/-- O24, O25: an operand of ADC and SBC that is read, and one that is not. -/
theorem witness_O24_O25_operands :
    (adcForms 0x10 0x02FF).any (fun form => okWith (form.src.get (probe [] [(0x02FF, 0x77)])) 0x77) = true
      ∧ (adcForms 0x10 0x0300).any (fun form => failsWith (form.src.get (probe [] [])) (.outOfBoundsAccess 0x0300)) = true
      ∧ (sbcForms 0x10 0x02FF).any (fun form => okWith (form.src.get (probe [] [(0x02FF, 0x77)])) 0x77) = true
      ∧ (sbcForms 0x10 0x0300).any (fun form => failsWith (form.src.get (probe [] [])) (.outOfBoundsAccess 0x0300)) = true := by
  decide

/-- O26, O27: an operand of AND, ORA, EOR and BIT that is read, and one that is not. -/
theorem witness_O26_O27_operands :
    (andForms 0x10 0x02FF).any (fun form => okWith (form.src.get (probe [] [(0x02FF, 0x77)])) 0x77) = true
      ∧ (andForms 0x10 0x0300).any (fun form => failsWith (form.src.get (probe [] [])) (.outOfBoundsAccess 0x0300)) = true
      ∧ (oraForms 0x10 0x02FF).any (fun form => okWith (form.src.get (probe [] [(0x02FF, 0x77)])) 0x77) = true
      ∧ (oraForms 0x10 0x0300).any (fun form => failsWith (form.src.get (probe [] [])) (.outOfBoundsAccess 0x0300)) = true
      ∧ (eorForms 0x10 0x02FF).any (fun form => okWith (form.src.get (probe [] [(0x02FF, 0x77)])) 0x77) = true
      ∧ (eorForms 0x10 0x0300).any (fun form => failsWith (form.src.get (probe [] [])) (.outOfBoundsAccess 0x0300)) = true
      ∧ (bitForms 0x10 0x02FF).any (fun form => okWith (form.src.get (probe [] [(0x02FF, 0x77)])) 0x77) = true
      ∧ (bitForms 0x10 0x0300).any (fun form => failsWith (form.src.get (probe [] [])) (.outOfBoundsAccess 0x0300)) = true := by
  decide

/-- O28: an operand of CMP, CPX and CPY that is read, and one that is not. -/
theorem witness_O28_operands :
    (cmpForms 0x10 0x02FF).any (fun form => okWith (form.src.get (probe [] [(0x02FF, 0x77)])) 0x77) = true
      ∧ (cmpForms 0x10 0x0300).any (fun form => failsWith (form.src.get (probe [] [])) (.outOfBoundsAccess 0x0300)) = true
      ∧ (cpxForms 0x10 0x02FF).any (fun form => okWith (form.src.get (probe [] [(0x02FF, 0x77)])) 0x77) = true
      ∧ (cpxForms 0x10 0x0300).any (fun form => failsWith (form.src.get (probe [] [])) (.outOfBoundsAccess 0x0300)) = true
      ∧ (cpyForms 0x10 0x02FF).any (fun form => okWith (form.src.get (probe [] [(0x02FF, 0x77)])) 0x77) = true
      ∧ (cpyForms 0x10 0x0300).any (fun form => failsWith (form.src.get (probe [] [])) (.outOfBoundsAccess 0x0300)) = true := by
  decide

/-- O29, O30: a read at the effective address that is made, at the last bound address in a state that meets the invariant, and
one that is not. -/
theorem witness_O29_O30_places :
    invCheck (probe [] []) = true ∧ okWith (memRead (probe [] [(0x02FF, 0x77)]) 0x02FF) 0x77 = true
      ∧ failsWith (memRead (probe [] []) 0x0300) (.outOfBoundsAccess 0x0300) = true
      ∧ [aslForms, lsrForms, rolForms, rorForms, incForms, decForms].all (fun forms =>
          (forms 0x10 0x02FF).any (fun form => okWith (effectiveAddress (probe [] []) form.mode) 0x02FF)
            && (forms 0x10 0x0300).any (fun form => okWith (effectiveAddress (probe [] []) form.mode) 0x0300)) = true := by
  decide

/-- O32: each branch condition holds in a state and does not in another. -/
theorem witness_O32_conditions :
    (∃ f : Flags, f.c = false ∧ f.z = false ∧ f.n = false ∧ f.v = false)
      ∧ ∃ f : Flags, f.c = true ∧ f.z = true ∧ f.n = true ∧ f.v = true :=
  ⟨⟨⟨false, false, false, false, false, false, false⟩, by decide⟩, ⟨true, true, true, true, true, true, true⟩, by decide⟩

/-- O33: a stored word over the top of memory, a first byte unbound, a second byte unbound. -/
theorem witness_O33_clauses :
    okWith (memRead full 0xFFFF) 0xEA = true ∧ okWith (memRead full (0xFFFF + 1)) 0x00 = true
      ∧ failsWith (memRead (probe [] []) 0x0300) (.outOfBoundsAccess 0x0300) = true
      ∧ okWith (memRead (probe [] []) 0x02FF) 0x00 = true
      ∧ failsWith (memRead (probe [] []) (0x02FF + 1)) (.outOfBoundsAccess 0x0300) = true := by decide

/-- O34: room for two entries exactly, and for one. -/
theorem witness_O34_clauses :
    invCheck { probe [] [] with sp := 126 } = true ∧ 126 + 2 ≤ (probe [] []).stackCapacity
      ∧ invCheck { probe [] [] with sp := 127 } = true ∧ (probe [] []).stackCapacity < 127 + 2 := by decide

/-- O35: two entries exactly, and one. -/
theorem witness_O35_clauses :
    invCheck { probe [] [] with sp := 2 } = true ∧ 2 ≤ 2 ∧ invCheck { probe [] [] with sp := 1 } = true ∧ 1 < 2 := by decide

/-- O36: room for three entries and a vector; room for two; no vector; its first byte only. -/
theorem witness_O36_clauses :
    invCheck { full with sp := 125 } = true ∧ 125 + 3 ≤ full.stackCapacity ∧ okWith (memRead full 0xFFFE) 0x00 = true
      ∧ okWith (memRead full 0xFFFF) 0xEA = true
      ∧ invCheck { full with sp := 126 } = true ∧ full.stackCapacity < 126 + 3
      ∧ failsWith (memRead (probe [] []) 0xFFFE) (.outOfBoundsAccess 0xFFFE) = true
      ∧ invCheck { probe [] [] with memLen := 0xFFFF } = true
      ∧ okWith (memRead { probe [] [] with memLen := 0xFFFF } 0xFFFE) 0x00 = true
      ∧ failsWith (memRead { probe [] [] with memLen := 0xFFFF } 0xFFFF) (.outOfBoundsAccess 0xFFFF) = true := by decide

/-- O37: three entries exactly, and two. -/
theorem witness_O37_clauses :
    invCheck { probe [] [] with sp := 3 } = true ∧ 3 ≤ 3 ∧ invCheck { probe [] [] with sp := 2 } = true ∧ 2 < 3 := by decide

/-- O38: the last free entry, and a full stack. -/
theorem witness_O38_clauses :
    invCheck { probe [] [] with sp := 127 } = true ∧ 127 < (probe [] []).stackCapacity
      ∧ invCheck { probe [] [] with sp := 128 } = true ∧ 128 = (probe [] []).stackCapacity := by decide

/-- O39: one entry, and none. -/
theorem witness_O39_clauses :
    invCheck { probe [] [] with sp := 1 } = true ∧ 0 < 1 ∧ invCheck { probe [] [] with sp := 0 } = true := by decide

/-- O40: bytes that decode to NOP. -/
theorem witness_O40_nop : decode [0xEA, 0x12] = .ok (.nop, [0x12]) := rfl

/-- O41, O42, O43, O45: NOP completes, and is in none of the lists; the stack has an entry below sp. -/
theorem witness_O41_O42_O43_O45_nop :
    isNext (exec .nop { probe [] [] with sp := 1 }) = true ∧ 0 < ({ probe [] [] with sp := 1 } : State).sp
      ∧ Instr.nop.mnemonic ∉ [Mnemonic.lda, .txa, .tya, .pla, .adc, .sbc, .and, .ora, .eor]
      ∧ Instr.nop.mode ≠ .accumulator
      ∧ Instr.nop.mnemonic ∉ [Mnemonic.ldx, .tax, .tsx, .inx, .dex, .ldy, .tay, .iny, .dey]
      ∧ Instr.nop.mnemonic ∉ [Mnemonic.pha, .php, .jsr, .brk, .pla, .plp, .rts, .rti, .txs]
      ∧ setsPc .nop (probe [] []).flags = false := by decide

/-- O41: NOP is in none of the flag lists. -/
theorem witness_O41_lists :
    Instr.nop.mnemonic ∉ [Mnemonic.lda, .ldx, .ldy, .tax, .tay, .txa, .tya, .tsx, .pla, .and, .ora, .eor, .inc, .dec, .inx, .iny,
        .dex, .dey, .asl, .lsr, .rol, .ror, .adc, .sbc, .cmp, .cpx, .cpy, .bit, .plp, .rti]
      ∧ Instr.nop.mnemonic ∉ [Mnemonic.clv, .brk, .sed, .cld, .sei, .cli, .clc, .sec] := by decide

/-- O44: an instruction that stores nothing, and one that stores at its effective address. -/
theorem witness_O44_clauses :
    isNext (exec (.ldaZp 0x10) (probe [] [])) = true ∧ storedTo (.ldaZp 0x10) = none
      ∧ isNext (exec (.staAbs 0x02FF) (probe [] [])) = true ∧ storedTo (.staAbs 0x02FF) = some (.absolute 0x02FF) := by decide

/-- O46: ADC completes and faults, and is in none of the lists; SED and RTI are in the lists of writers. -/
theorem witness_O46_clauses :
    (Instr.adcAbs 0x0300).mnemonic ∉ [Mnemonic.sed, .cld, .plp, .rti, .php, .brk, .sei, .cli]
      ∧ Instr.sed.mnemonic ∈ [Mnemonic.sed, .cld, .plp, .rti] ∧ Instr.rti.mnemonic ∈ [Mnemonic.sei, .cli, .plp, .rti]
      ∧ isNext (exec (.adcImm 0x99) (probe [] [])) = true
      ∧ isFault (exec (.adcAbs 0x0300) (probe [] [])) (.outOfBoundsAccess 0x0300) = true := by decide

/-- O47: each fault is raised by an instruction it is listed for. -/
theorem witness_O47_clauses :
    isFault (exec .pha { probe [] [] with sp := 128 }) (.stackFault .push) = true
      ∧ isFault (exec .pla (probe [] [])) (.stackFault .pop) = true
      ∧ isFault (exec .txs { probe [] [] with x := 0x81 }) (.stackFault .txs) = true
      ∧ isFault (exec (.ldaAbs 0x0300) (probe [] [])) (.outOfBoundsAccess 0x0300) = true := by decide

/-- O48: with a full memory a step faults for an illegal byte and for an empty stack. -/
theorem witness_O48_clauses :
    (probeAt 0x0200 65536 [0xFF] []).memLen = 65536
      ∧ isFault (step (probeAt 0x0200 65536 [0xFF] [])) (.illegalOpcode 0xFF 0x0200) = true
      ∧ isFault (step (probeAt 0x0200 65536 [0x68] [])) (.stackFault .pop) = true := by decide

/-- O49: bytes at pc that wrap over the top of memory and decode to an instruction. -/
theorem witness_O49_bytes :
    (let s : State := probeAt 0xFFFF 65536 [0xA9] [(0x0000, 0x05)]
    okWith (memRead s (s.pc + BitVec.ofNat 16 0)) 0xA9 && okWith (memRead s (s.pc + BitVec.ofNat 16 1)) 0x05
      && written [0xA9, 0x05] (.ldaImm 0x05)) = true := by decide

/-- O50: pc unbound; an illegal byte; a two-byte and a three-byte instruction cut off after the first and the second byte. -/
theorem witness_O50_clauses :
    State.reset.memLen ≤ State.reset.pc.toNat
      ∧ (0x02 : Byte) ∈ illegalBytes ∧ okWith (memRead (probe [0x02] []) 0x0200) 0x02 = true
      ∧ (encode (.ldaImm 0x05))[0]? = some 0xA9 ∧ 2 ≤ (encode (.ldaImm 0x05)).length
      ∧ okWith (memRead (probeAt 0x02FF 0x0300 [0xA9] []) 0x02FF) 0xA9 = true ∧ 0x0300 ≤ ((0x02FF : Word) + 1).toNat
      ∧ (encode (.ldaAbs 0x0000))[0]? = some 0xAD ∧ 3 ≤ (encode (.ldaAbs 0x0000)).length
      ∧ okWith (memRead (probeAt 0x02FE 0x0300 [0xAD] []) 0x02FE) 0xAD = true
      ∧ ((0x02FE : Word) + 1).toNat < 0x0300 ∧ 0x0300 ≤ ((0x02FE : Word) + 2).toNat := by decide

/-- O51: a step that faults. -/
theorem witness_O51_fault : isFault (step State.reset) (.outOfBoundsAccess 0) = true := by decide

/-- O52: a fetch that gives an instruction which completes. -/
theorem witness_O52_step :
    okWith (fetch (probe [0xEA] [])) .nop = true ∧ isNext (exec .nop (probe [0xEA] [])) = true := by decide

/-- O53: told to stop; told to go on before a fault and before a step that completes; a run that comes to its end. -/
theorem witness_O53_clauses :
    ((fun (_ : List Report) (_ : State) => true) [] State.reset) = true
      ∧ ((fun (_ : List Report) (_ : State) => false) [] State.reset) = false
      ∧ isFault (step State.reset) (.outOfBoundsAccess 0) = true
      ∧ ends (probe [0xEA] []) { probe [0xEA] [] with pc := 0x0201 } 1 false = true
      ∧ run (fun _ _ => false) 1 [] State.reset = .faulted (.outOfBoundsAccess 0) State.reset := by decide

/-- O54: a well-formed instruction. -/
theorem witness_O54_wellFormed : (Instr.jmpInd 0xFFFF).wellFormed = true := by decide

/-- O55: bytes that decode, with bytes after them; one instruction has one encoding. -/
theorem witness_O55_decoded :
    decode [0x6C, 0xFF, 0x12, 0xEA] = .ok (.jmpInd 0x12FF, [0xEA]) ∧ encode (.jmpInd 0x12FF) = [0x6C, 0xFF, 0x12] :=
  ⟨rfl, rfl⟩

/-- O56: the first and the last illegal byte, at pc. -/
theorem witness_O56_illegal :
    (0x02 : Byte) ∈ illegalBytes ∧ (0xFF : Byte) ∈ illegalBytes
      ∧ okWith (memRead (probe [0xFF] []) (probe [0xFF] []).pc) 0xFF = true := by decide

/-- O57: two decodings under one opcode byte, and a legal byte. -/
theorem witness_O57_clauses :
    decode [0xA9, 0x01] = .ok (.ldaImm 0x01, []) ∧ decode [0xA9, 0x02, 0x03] = .ok (.ldaImm 0x02, [0x03])
      ∧ (0xA9 : Byte) ∉ illegalBytes := ⟨rfl, rfl, by decide⟩

/-- O59: a JSR with room for two entries exactly, and an RTS at its target. -/
theorem witness_O59_call :
    (let s : State := { probe [0x20, 0x80, 0x02] [(0x0280, 0x60)] with sp := 126 }
    invCheck s && s.sp + 2 == s.stackCapacity && okWith (memRead s s.pc) 0x20 && okWith (memRead s (s.pc + 1)) (lo8 0x0280)
      && okWith (memRead s (s.pc + 2)) (hi8 0x0280) && okWith (memRead s 0x0280) 0x60) = true := by decide

/-- O60: a PHP and a PLP behind it with one entry free; a BRK with three entries free and an RTI at the handler. -/
theorem witness_O60_clauses :
    (let s : State := { probe [0x08, 0x28] [] with sp := 127 }
    invCheck s && decide (s.sp < s.stackCapacity) && okWith (memRead s s.pc) 0x08 && okWith (memRead s (s.pc + 1)) 0x28) = true
      ∧ (let s : State := { probeAt 0x0200 65536 [0x00] [(0x9000, 0x40), (0xFFFF, 0x90)] with sp := 125 }
        invCheck s && s.sp + 3 == s.stackCapacity && okWith (memRead s s.pc) 0x00 && okWith (memRead16 s 0xFFFE) 0x9000
          && okWith (memRead s 0x9000) 0x40) = true := by decide

end Sys2Proof.Tests
end

section
/-! SUPPORT. The host's two transactions that make a core, `construct()` and `load`, meet the invariant (R8, R50, R332), and the report of a completed step (R12). -/

namespace Sys2Proof.Machine

/-! ### `construct()` -/

/-- A constructed core meets the invariant exactly when its STACK_CAPACITY is admissible (R8). -/
theorem construct_inv_iff {capacity : Nat} {entries : Nat → Byte} :
    (construct capacity entries).Inv ↔ Config.CapacityAdmissible capacity := by
  simp [construct, State.reset, State.Inv, Memory.wf, Memory.wfFrom]

/-- The model's reset state is the constructed core of this hardware, with zero stack entries (log entry 3). -/
theorem reset_eq_construct : State.reset = construct Config.stackCapacity fun _ => 0 := by
  have hstack : State.reset.stack = (construct Config.stackCapacity fun _ => 0).stack := by
    simp [State.reset, construct]
  exact State.eq_of_fields rfl rfl rfl rfl rfl rfl rfl hstack rfl rfl

/-- Settles O4: `State.reset` is a constructed core, and every admissible STACK_CAPACITY gives the invariant. -/
theorem resetMeetsInvariant : Obligations.ResetMeetsInvariant := by
  refine ⟨reset_eq_construct, ?_, fun _ _ hlow hhigh => construct_inv_iff.2 ⟨hlow, hhigh⟩⟩
  rw [reset_eq_construct]
  exact construct_inv_iff.2 (by decide)

/-! ### `load` -/

/-- The cells of an image lie between its origin and its end. -/
theorem imageCells_bounds {cell : Host.Cell} {image : List Byte} :
    ∀ {addr : Nat}, cell ∈ imageCells addr image → addr ≤ cell.1 ∧ cell.1 < addr + image.length := by
  induction image with
  | nil => intro addr h; cases h
  | cons v rest ih =>
    intro addr h
    rw [List.length_cons]
    rcases List.mem_cons.1 h with rfl | h
    · exact ⟨le_rfl, by omega⟩
    · have := ih h
      omega

/-- The memory of a launch is in canonical form, whatever the image and the free bytes. -/
theorem launchMemory_wf (image : List Byte) (origin : Word) (memLen : Nat) (others : List Host.Cell) :
    (launchMemory image origin memLen others).wf = true :=
  Memory.wf_writeCells _ (Memory.wf_writeCells _ rfl)

/-- When the image fits, the memory of a launch lists bound addresses only (R60). -/
theorem launchMemory_bound {image : List Byte} {origin : Word} {memLen : Nat} {others : List Host.Cell}
    (hfit : origin.toNat + image.length ≤ memLen) :
    ∀ cell ∈ launchMemory image origin memLen others, cell.1 < memLen := by
  intro cell h
  rcases Memory.mem_writeCells _ h with ⟨c, hc, heq⟩ | h
  · have := (imageCells_bounds hc).2
    omega
  · rcases Memory.mem_writeCells _ h with ⟨c, hc, heq⟩ | h
    · have : c.1 < memLen := by simpa using (List.mem_filter.1 hc).2
      omega
    · cases h

/-- Settles O5: `load` leaves the stack alone, takes an admissible MEM_LEN, and lists only bound addresses. -/
theorem loadKeepsInvariant : Obligations.LoadKeepsInvariant := by
  intro image origin given others s t hinv hload
  obtain ⟨hsp, hstack, hcapacity, -, -, -⟩ := hinv
  obtain ⟨-, hlen, -, hfit, rfl⟩ := load_eq_next_iff.1 hload
  exact ⟨hsp, hstack, hcapacity, hlen, launchMemory_wf .., launchMemory_bound hfit⟩

/-! ### The report of a step -/

/-- The encoding of an instruction has `bytes_consumed` bytes (R92). -/
@[simp] theorem encode_length (i : Instr) : (encode i).length = i.length := by
  cases i <;> rfl

/-- What the host sees when the fetched instruction completes (R12, R26 step 6). -/
theorem stepReport_of_exec {s t : State} {i : Instr} (hfetch : fetch s = .ok i) (hexec : exec i s = .next t) :
    stepReport s = .ok t { bytesConsumed := i.length, pcSet := setsPc i s.flags } := by
  simp [stepReport, hfetch, hexec]

/-- Settles O52: the report counts the bytes of the encoding. -/
theorem stepReportsLengthAndPcSet : Obligations.StepReportsLengthAndPcSet := by
  intro s t i hfetch hexec
  rw [encode_length]
  exact stepReport_of_exec hfetch hexec

end Sys2Proof.Machine
end

section
/-! SUPPORT. The flags and the general registers by name, and which instruction may write which (R21 to R23, R40). -/

namespace Sys2Proof.Machine

/-- The seven flags by name (R32). -/
inductive Flag where
  | n | v | b | d | i | z | c
deriving DecidableEq

def Flags.get (f : Flags) : Flag → Bool
  | .n => f.n
  | .v => f.v
  | .b => f.b
  | .d => f.d
  | .i => f.i
  | .z => f.z
  | .c => f.c

def Flags.set (f : Flags) (φ : Flag) (value : Bool) : Flags :=
  match φ with
  | .n => { f with n := value }
  | .v => { f with v := value }
  | .b => { f with b := value }
  | .d => { f with d := value }
  | .i => { f with i := value }
  | .z => { f with z := value }
  | .c => { f with c := value }

theorem Flags.get_set_of_ne {φ ψ : Flag} (h : φ ≠ ψ) (f : Flags) (value : Bool) : (f.set ψ value).get φ = f.get φ := by
  cases ψ <;> cases φ <;> simp_all [Flags.get, Flags.set]

theorem Flags.set_comm {φ ψ : Flag} (h : φ ≠ ψ) (f : Flags) (u v : Bool) :
    (f.set φ u).set ψ v = (f.set ψ v).set φ u := by
  cases ψ <;> cases φ <;> simp_all [Flags.set]

/-- The flag table of R40: whether a mnemonic may write a flag. -/
def writesFlag (m : Mnemonic) : Flag → Bool
  | .z | .n => m ∈ [Mnemonic.lda, .ldx, .ldy, .tax, .tay, .txa, .tya, .tsx, .pla, .and, .ora, .eor, .inc, .dec, .inx, .iny,
      .dex, .dey, .asl, .lsr, .rol, .ror, .adc, .sbc, .cmp, .cpx, .cpy, .bit, .plp, .rti]
  | .v => m ∈ [Mnemonic.adc, .sbc, .bit, .clv, .plp, .rti]
  | .b => m ∈ [Mnemonic.brk, .plp, .rti]
  | .d => m ∈ [Mnemonic.sed, .cld, .plp, .rti]
  | .i => m ∈ [Mnemonic.sei, .cli, .brk, .plp, .rti]
  | .c => m ∈ [Mnemonic.adc, .sbc, .cmp, .cpx, .cpy, .asl, .lsr, .rol, .ror, .clc, .sec, .plp, .rti]

/-- The register rules R21 to R23: whether an instruction may write a register. -/
def writesReg (i : Instr) : Reg → Bool
  | .a => i.mnemonic ∈ [Mnemonic.lda, .txa, .tya, .pla, .adc, .sbc, .and, .ora, .eor] || i.mode == .accumulator
  | .x => i.mnemonic ∈ [Mnemonic.ldx, .tax, .tsx, .inx, .dex]
  | .y => i.mnemonic ∈ [Mnemonic.ldy, .tay, .iny, .dey]

/-- Every flag that the mnemonic does not write is as before. -/
def FlagsKept (m : Mnemonic) (f g : Flags) : Prop := ∀ φ, writesFlag m φ = false → g.get φ = f.get φ

/-- Every general register that the instruction does not write is as before. -/
def RegsKept (i : Instr) (s t : State) : Prop := ∀ r, writesReg i r = false → t.getReg r = s.getReg r

variable {m : Mnemonic} {f g : Flags}

theorem FlagsKept.refl : FlagsKept m f f := fun _ _ => rfl

/-- One more flag may be written when the mnemonic writes it. -/
theorem FlagsKept.set {ψ : Flag} (h : FlagsKept m f g) (hw : writesFlag m ψ = true) (value : Bool) :
    FlagsKept m f (g.set ψ value) := by
  intro φ hφ
  have hne : φ ≠ ψ := by rintro rfl; simp [hw] at hφ
  rw [Flags.get_set_of_ne hne, h φ hφ]

theorem FlagsKept.setZN (h : FlagsKept m f g) (hw : writesFlag m .z = true) (v : Byte) : FlagsKept m f (g.setZN v) :=
  (h.set (ψ := .z) hw (v == 0x00)).set (ψ := .n) hw (v.getLsbD 7)

/-- PLP and RTI may write every flag (R39). -/
theorem FlagsKept.of_writes_all (hw : ∀ φ, writesFlag m φ = true) : FlagsKept m f g :=
  fun φ hφ => by simp [hw φ] at hφ

theorem State.getReg_setReg_of_ne {r q : Reg} (h : q ≠ r) (s : State) (v : Byte) : (s.setReg r v).getReg q = s.getReg q := by
  cases r <;> cases q <;> simp_all [State.getReg]

theorem RegsKept.setReg {i : Instr} {r : Reg} (hw : writesReg i r = true) (s : State) (v : Byte) :
    RegsKept i s (s.setReg r v) := by
  intro q hq
  exact State.getReg_setReg_of_ne (by rintro rfl; simp [hw] at hq) s v

end Sys2Proof.Machine
end

section
/-! SUPPORT. Flags D and I, which no computation reads (R35, R36). -/

namespace Sys2Proof.Machine

/-- The flags that only PHP and BRK read. -/
def Flag.Inert (φ : Flag) : Prop := φ = .d ∨ φ = .i

/-- The state with another value in one flag; `withD` and `withI` are two cases of it. -/
def withFlag (φ : Flag) (value : Bool) (s : State) : State := s.setFlags (s.flags.set φ value)

/-- A result with its next state, if it has one, changed. -/
def mapNext (change : State → State) : Result → Result
  | .next t => .next (change t)
  | .fault f => .fault f
  | .refused r => .refused r

variable {φ : Flag} (value : Bool) (s : State)

/-- Whether an instruction writes pc does not depend on D or I (R221 to R228). -/
theorem setsPc_set_inert (hφ : φ.Inert) (i : Instr) (f : Flags) : setsPc i (f.set φ value) = setsPc i f := by
  rcases hφ with rfl | rfl <;> rfl

theorem Flags.setZN_set_inert (hφ : φ.Inert) (f : Flags) (v : Byte) : (f.set φ value).setZN v = (f.setZN v).set φ value := by
  rcases hφ with rfl | rfl <;> rfl

/-- A push does not look at the flags. -/
theorem stackPush_withFlag (v : Byte) : stackPush (withFlag φ value s) v = (stackPush s v).map (withFlag φ value) := by
  unfold stackPush
  by_cases h : s.sp < s.stackCapacity <;> simp [withFlag, h, Except.map, State.setFlags]

/-- A pull does not look at the flags. -/
theorem stackPop_withFlag :
    stackPop (withFlag φ value s) = (stackPop s).map fun p => (p.1, withFlag φ value p.2) := by
  unfold stackPop
  by_cases h : s.sp = 0
  · simp [withFlag, h, Except.map]
  · cases hv : s.stack[s.sp - 1]? <;> simp_all [withFlag, Except.map, State.setFlags]

theorem stackPush16_withFlag (w : Word) :
    stackPush16 (withFlag φ value s) w = (stackPush16 s w).map (withFlag φ value) := by
  simp only [stackPush16, stackPush_withFlag]
  cases stackPush s (hi8 w) with
  | error f => rfl
  | ok t => exact stackPush_withFlag value t _

theorem stackPop16_withFlag :
    stackPop16 (withFlag φ value s) = (stackPop16 s).map fun p => (p.1, withFlag φ value p.2) := by
  simp only [stackPop16, stackPop_withFlag]
  cases stackPop s with
  | error f => rfl
  | ok p =>
    simp only [Except.map, bind, Except.bind, stackPop_withFlag]
    cases stackPop p.2 <;> rfl

/-- Resolution does not look at the flags. -/
theorem effectiveAddress_withFlag (m : MemMode) : effectiveAddress (withFlag φ value s) m = effectiveAddress s m := by
  cases m <;> rfl

theorem get_withFlag (src : Source) : src.get (withFlag φ value s) = src.get s := by
  cases src with
  | imm b => rfl
  | mem m => simp only [Source.get, effectiveAddress_withFlag]; rfl

end Sys2Proof.Machine
end

section
/-! SUPPORT. The meaning of every instruction, sorted once by what it does with its operand and the stack (R26, R70, R109): `exec_runs`. What an instruction computes in registers and flags is `Computes`. -/

namespace Sys2Proof.Machine

/-- A change of the state that instruction `i` may make by computing: registers and flags only, each register and flag only
when the rules give it to `i`, and with D and I not read unless `i` writes them. -/
structure Computes (i : Instr) (effect : State → State) : Prop where
  rest : ∀ s, effect s = { s with a := (effect s).a, x := (effect s).x, y := (effect s).y, flags := (effect s).flags }
  regs : ∀ s, RegsKept i s (effect s)
  flags : ∀ s, FlagsKept i.mnemonic s.flags (effect s).flags
  inert : ∀ {φ : Flag}, φ.Inert → writesFlag i.mnemonic φ = false →
    ∀ value s, effect (withFlag φ value s) = withFlag φ value (effect s)

/-- The operations that instruction `i` may be: how it uses its operand or the stack, and what it computes there. -/
inductive Runs (i : Instr) : (State → Result) → Prop
  | read (src : Source) (effect : Byte → State → State) (hlen : i.length = src.length)
      (he : ∀ v, Computes i (effect v)) : Runs i fun s => readThen src s fun v => effect v s
  | implied (effect : State → State) (hlen : i.length = 1) (he : Computes i effect) :
      Runs i fun s => impliedThen (effect s)
  | store (r : Reg) (m : MemMode) (hlen : i.length = m.length) : Runs i (storeReg r m)
  | modify (m : MemMode) (change : State → Byte → Byte × Flags) (hlen : i.length = m.length)
      (hflags : ∀ s v, FlagsKept i.mnemonic s.flags (change s v).2)
      (hinert : ∀ {φ : Flag}, φ.Inert → ∀ value s v,
        change (withFlag φ value s) v = ((change s v).1, (change s v).2.set φ value)) :
      Runs i fun s => modifyThen (.mem m) s (change s)
  | branch (b : Byte) (hlen : i.length = 2) : Runs i fun s => branch (setsPc i s.flags) b s
  | jump (w : Word) (hpc : ∀ f, setsPc i f = true) : Runs i (jumpTo w)
  | jumpIndirect (w : Word) (hpc : ∀ f, setsPc i f = true) : Runs i (execJmpInd w)
  | call (w : Word) (hi : i.mnemonic = .jsr) : Runs i (execJsrAbs w)
  | ret (hi : i.mnemonic = .rts) : Runs i execRts
  | brk (hi : i.mnemonic = .brk) : Runs i execBrk
  | rti (hi : i.mnemonic = .rti) : Runs i execRti
  | push (value : State → Byte) (hlen : i.length = 1) (hi : i.mnemonic ∈ [Mnemonic.pha, .php])
      (hinert : i.mnemonic ≠ .php → ∀ φ b s, value (withFlag φ b s) = value s) : Runs i fun s => pushThen s (value s)
  | pull (effect : Byte → State → State) (hlen : i.length = 1) (hi : i.mnemonic ∈ [Mnemonic.pla, .plp])
      (he : ∀ v, Computes i (effect v)) : Runs i fun s => pullThen s effect
  | txs (hlen : i.length = 1) (hi : i.mnemonic = .txs) : Runs i execTxs

variable {i : Instr}

/-- A computation of flags that writes no register. -/
theorem Computes.of_flags {result : State → Flags} (hflags : ∀ s, FlagsKept i.mnemonic s.flags (result s))
    (hinert : ∀ {φ : Flag}, φ.Inert → writesFlag i.mnemonic φ = false →
      ∀ value s, result (withFlag φ value s) = (result s).set φ value) :
    Computes i fun s => s.setFlags (result s) where
  rest _ := rfl
  regs _ _ _ := rfl
  flags := hflags
  inert hφ hw value s := by rw [hinert hφ hw]; rfl

/-- A computation of one register and of flags. -/
theorem Computes.of_reg_flags {r : Reg} {byte : State → Byte} {result : State → Flags} (hreg : writesReg i r = true)
    (hflags : ∀ s, FlagsKept i.mnemonic s.flags (result s))
    (hbyte : ∀ {φ : Flag}, φ.Inert → ∀ value s, byte (withFlag φ value s) = byte s)
    (hinert : ∀ {φ : Flag}, φ.Inert → ∀ value s, result (withFlag φ value s) = (result s).set φ value) :
    Computes i fun s => (s.setReg r (byte s)).setFlags (result s) where
  rest s := by cases r <;> rfl
  regs s := .setReg hreg s (byte s)
  flags := hflags
  inert hφ _ value s := by rw [hinert hφ, hbyte hφ]; cases r <;> rfl

/-- A register with Z and N set from its new byte. -/
theorem Computes.of_reg {r : Reg} {byte : State → Byte} (hreg : writesReg i r = true)
    (hzn : writesFlag i.mnemonic .z = true) (hbyte : ∀ {φ : Flag}, φ.Inert → ∀ value s, byte (withFlag φ value s) = byte s) :
    Computes i fun s => (s.setReg r (byte s)).setZN (byte s) := by
  have h : Computes i fun s => (s.setReg r (byte s)).setFlags (s.flags.setZN (byte s)) :=
    .of_reg_flags hreg (fun s => .setZN .refl hzn _) hbyte fun hφ value s => by
      rw [hbyte hφ]; exact Flags.setZN_set_inert value hφ s.flags _
  convert h using 2
  cases r <;> rfl

/-- One flag written with a constant: CLC, CLD, CLI, CLV, SEC, SED, SEI (R270 to R276). -/
theorem Computes.of_flag (ψ : Flag) (b : Bool) (hw : writesFlag i.mnemonic ψ = true) :
    Computes i fun s => s.setFlags (s.flags.set ψ b) :=
  .of_flags (fun _ => .set .refl hw b) fun {φ} _ hφ value s => by
    have hne : φ ≠ ψ := by rintro rfl; simp [hw] at hφ
    exact Flags.set_comm hne s.flags value b

/-- Every flag restored from a pulled byte, when the mnemonic writes every flag (R39). -/
theorem Computes.unpack (hall : ∀ φ, writesFlag i.mnemonic φ = true) (p : Byte) :
    Computes i fun s => s.setFlags (Flags.unpack p) :=
  .of_flags (fun _ => .of_writes_all hall) fun {φ} _ hφ => by simp [hall φ] at hφ

theorem Computes.unchanged : Computes i id := ⟨fun _ => rfl, fun _ _ _ => rfl, fun _ => .refl, fun _ _ _ _ => rfl⟩

/-! ### The shared operations of the model -/

section
variable {src : Source} {m : MemMode} (hlen : i.length = src.length := by rfl) (hmem : i.length = m.length := by rfl)
  (hone : i.length = 1 := by rfl) (hzn : writesFlag i.mnemonic .z = true := by rfl)
  (hc : writesFlag i.mnemonic .c = true := by rfl) (hv : writesFlag i.mnemonic .v = true := by rfl)
  (ha : writesReg i .a = true := by rfl)

include hlen hzn in
theorem runs_loadReg {r : Reg} (hr : writesReg i r = true := by rfl) : Runs i (loadReg r src) :=
  .read src _ hlen fun _ => .of_reg hr hzn fun _ _ _ => rfl

include hlen hzn ha in
/-- AND, ORA, EOR (R175 to R177). -/
theorem runs_logic {op : Byte → Byte → Byte} :
    Runs i fun s => readThen src s fun v => (s.setReg .a (op s.a v)).setZN (op s.a v) :=
  .read src _ hlen fun v => .of_reg (byte := fun s => op s.a v) ha hzn fun _ _ _ => rfl

include hlen hzn hc hv ha in
/-- ADC, SBC (R170, R171). -/
theorem runs_arith {alu : Byte → Byte → Bool → AluOut} :
    Runs i fun s => readThen src s fun v =>
      (s.setReg .a (alu s.a v s.flags.c).r).setFlags (s.flags.setArith (alu s.a v s.flags.c)) :=
  .read src _ hlen fun v => .of_reg_flags (byte := fun s => (alu s.a v s.flags.c).r) ha
    (fun s => ((FlagsKept.set .refl hc (alu s.a v s.flags.c).carry).set hv (alu s.a v s.flags.c).overflow).setZN hzn _)
    (fun hφ _ _ => by rcases hφ with rfl | rfl <;> rfl)
    (fun hφ _ _ => by rcases hφ with rfl | rfl <;> rfl)

include hlen hzn hv in
theorem runs_bitTest : Runs i (bitTest src) :=
  .read src _ hlen fun v => .of_flags (result := fun s => s.flags.setBit s.a v)
    (fun s => ((FlagsKept.set .refl (ψ := .z) hzn (s.a &&& v == 0x00)).set (ψ := .n) hzn (v.getLsbD 7)).set hv (v.getLsbD 6))
    fun hφ _ _ _ => by rcases hφ with rfl | rfl <;> rfl

include hlen hzn hc in
theorem runs_compareReg {r : Reg} : Runs i (compareReg r src) :=
  .read src _ hlen fun v => .of_flags (result := fun s => s.flags.setCompare (s.getReg r) v)
    (fun s => by
      rw [Flags.setCompare]
      exact ((FlagsKept.set .refl (ψ := .n) hzn _).set (ψ := .z) hzn _).set hc _)
    fun hφ _ _ _ => by rcases hφ with rfl | rfl <;> rfl

include hone hzn in
theorem runs_transferReg {q r : Reg} (hr : writesReg i r = true := by rfl) : Runs i (transferReg q r) :=
  .implied _ hone (.of_reg hr hzn fun _ _ _ => by cases q <;> rfl)

include hone hzn in
theorem runs_stepReg {f : Byte → Byte} {r : Reg} (hr : writesReg i r = true := by rfl) : Runs i (stepReg f r) :=
  .implied _ hone (.of_reg (byte := fun s => f (s.getReg r)) hr hzn fun _ _ _ => by cases r <;> rfl)

/-- The flags a shift leaves are those the mnemonic may write. -/
theorem shift_flagsKept (s : State) (out : Byte × Bool) (hzn : writesFlag i.mnemonic .z = true)
    (hc : writesFlag i.mnemonic .c = true) :
    FlagsKept i.mnemonic s.flags (Flags.setZN { s.flags with c := out.2 } out.1) :=
  (FlagsKept.set .refl hc out.2).setZN hzn out.1

include hone hzn hc ha in
theorem runs_shiftAcc {f : Byte → Bool → Byte × Bool} : Runs i (shiftOp f .acc) :=
  .implied _ hone (.of_reg_flags ha (fun s => shift_flagsKept s (f s.a s.flags.c) hzn hc) (fun hφ _ _ => by rcases hφ with rfl | rfl <;> rfl)
    fun hφ _ _ => by rcases hφ with rfl | rfl <;> rfl)

include hmem hzn hc in
theorem runs_shiftMem {f : Byte → Bool → Byte × Bool} : Runs i (shiftOp f (.mem m)) :=
  .modify m _ hmem (fun s v => shift_flagsKept s (f v s.flags.c) hzn hc)
    fun hφ _ _ _ => by rcases hφ with rfl | rfl <;> rfl

include hmem hzn in
theorem runs_stepMem {f : Byte → Byte} : Runs i (stepMem f m) :=
  .modify m (fun s v => (f v, s.flags.setZN (f v))) hmem (fun _ _ => .setZN .refl hzn _)
    fun hφ _ _ _ => by rcases hφ with rfl | rfl <;> rfl

end

/-- The meaning of every instruction is one of these operations. -/
theorem exec_runs (i : Instr) : Runs i (exec i) := by
  cases i with
  | adcImm b => exact runs_arith (src := .imm b) (alu := addWithCarry)
  | adcZp | adcZpx | adcAbs | adcAbsx | adcAbsy | adcIndx | adcIndy => exact runs_arith (alu := addWithCarry)
  | sbcImm b => exact runs_arith (src := .imm b) (alu := subWithBorrow)
  | sbcZp | sbcZpx | sbcAbs | sbcAbsx | sbcAbsy | sbcIndx | sbcIndy => exact runs_arith (alu := subWithBorrow)
  | andImm b => exact runs_logic (src := .imm b) (op := (· &&& ·))
  | andZp | andZpx | andAbs | andAbsx | andAbsy | andIndx | andIndy => exact runs_logic (op := (· &&& ·))
  | oraImm b => exact runs_logic (src := .imm b) (op := (· ||| ·))
  | oraZp | oraZpx | oraAbs | oraAbsx | oraAbsy | oraIndx | oraIndy => exact runs_logic (op := (· ||| ·))
  | eorImm b => exact runs_logic (src := .imm b) (op := (· ^^^ ·))
  | eorZp | eorZpx | eorAbs | eorAbsx | eorAbsy | eorIndx | eorIndy => exact runs_logic (op := (· ^^^ ·))
  | bitZp | bitAbs => exact runs_bitTest
  | cmpImm b | cpxImm b | cpyImm b => exact runs_compareReg (src := .imm b)
  | cmpZp | cmpZpx | cmpAbs | cmpAbsx | cmpAbsy | cmpIndx | cmpIndy | cpxZp | cpxAbs | cpyZp
  | cpyAbs => exact runs_compareReg
  | ldaImm b | ldxImm b | ldyImm b => exact runs_loadReg (src := .imm b)
  | ldaZp | ldaZpx | ldaAbs | ldaAbsx | ldaAbsy | ldaIndx | ldaIndy | ldxZp | ldxZpy | ldxAbs | ldxAbsy
  | ldyZp | ldyZpx | ldyAbs | ldyAbsx => exact runs_loadReg
  | staZp | staZpx | staAbs | staAbsx | staAbsy | staIndx | staIndy | stxZp | stxZpy | stxAbs | styZp | styZpx | styAbs =>
    exact .store _ _ rfl
  | aslAcc | lsrAcc | rolAcc | rorAcc => exact runs_shiftAcc
  | aslZp | aslZpx | aslAbs | aslAbsx | lsrZp | lsrZpx | lsrAbs | lsrAbsx | rolZp | rolZpx | rolAbs | rolAbsx | rorZp | rorZpx
  | rorAbs | rorAbsx => exact runs_shiftMem
  | incZp | incZpx | incAbs | incAbsx | decZp | decZpx | decAbs | decAbsx => exact runs_stepMem
  | inx | iny | dex | dey => exact runs_stepReg
  | tax | tay | txa | tya => exact runs_transferReg
  | tsx => exact .implied _ rfl (.of_reg (r := .x) rfl rfl fun _ _ _ => rfl)
  | clc | sec => exact .implied _ rfl (.of_flag .c _ rfl)
  | cld | sed => exact .implied _ rfl (.of_flag .d _ rfl)
  | cli | sei => exact .implied _ rfl (.of_flag .i _ rfl)
  | clv => exact .implied _ rfl (.of_flag .v _ rfl)
  | nop => exact .implied _ rfl .unchanged
  | bcc b | bcs b | beq b | bmi b | bne b | bpl b | bvc b | bvs b => exact .branch b rfl
  | jmpAbs w => exact .jump w fun _ => rfl
  | jmpInd w => exact .jumpIndirect w fun _ => rfl
  | jsrAbs w => exact .call w rfl
  | rts => exact .ret rfl
  | brk => exact .brk rfl
  | rti => exact .rti rfl
  | pha => exact .push (fun s => s.a) rfl (by decide) fun _ _ _ _ => rfl
  | php => exact .push (fun s => s.flags.pack) rfl (by decide) fun h => absurd rfl h
  | pla =>
    exact .pull (fun v t => (t.setReg .a v).setZN v) rfl (by decide) fun v => .of_reg rfl rfl fun _ _ _ => rfl
  | plp =>
    exact .pull (fun p t => t.setFlags (Flags.unpack p)) rfl (by decide) (.unpack fun φ => by cases φ <;> rfl)
  | txs => exact .txs rfl rfl

end Sys2Proof.Machine
end

section
/-! SUPPORT. All that a completed instruction can do to the state, said once: `exec_moves`. -/

namespace Sys2Proof.Machine

/-- The state after instruction `i` completes in `s`. -/
inductive Moves (i : Instr) (s : State) : State → Prop
  | compute (effect : State → State) (he : Computes i effect) : Moves i s ((effect s).advance i.length)
  | store (ea : Word) (v : Byte) (f : Flags) (hea : ea.toNat < s.memLen) (hf : FlagsKept i.mnemonic s.flags f) :
      Moves i s (State.advance { s with mem := s.mem.write ea.toNat v, flags := f } i.length)
  | jump (p : Word) (hp : setsPc i s.flags = false → p = s.pc + BitVec.ofNat 16 i.length) : Moves i s (s.setPc p)
  /-- PHA, PHP, JSR, BRK: entries above the old top are written. -/
  | raise (stack : List Byte) (n : Nat) (f : Flags) (p : Word) (hi : i.mnemonic ∈ [Mnemonic.pha, .php, .jsr, .brk])
      (hn : n ≤ s.stackCapacity) (hlen : stack.length = s.stack.length) (hbelow : ∀ k, k < s.sp → stack[k]? = s.stack[k]?)
      (hf : FlagsKept i.mnemonic s.flags f) (hp : setsPc i s.flags = false → p = s.pc + BitVec.ofNat 16 i.length) :
      Moves i s { s with stack := stack, sp := n, flags := f, pc := p }
  /-- PLA, PLP, RTS, RTI, TXS: sp is set, no entry is written. -/
  | moveTop (n : Nat) (effect : State → State) (p : Word) (hi : i.mnemonic ∈ [Mnemonic.pla, .plp, .rts, .rti, .txs])
      (hn : n ≤ s.sp ∨ n ≤ s.stackCapacity) (he : Computes i effect)
      (hp : setsPc i s.flags = false → p = s.pc + BitVec.ofNat 16 i.length) :
      Moves i s ((effect { s with sp := n }).setPc p)

variable {i : Instr} {s t : State}

/-- What computes changes neither pc nor the stack nor memory. -/
theorem Computes.pc {effect : State → State} (he : Computes i effect) (s : State) : (effect s).pc = s.pc := by
  rw [he.rest s]

theorem Computes.sp {effect : State → State} (he : Computes i effect) (s : State) : (effect s).sp = s.sp := by
  rw [he.rest s]

theorem Computes.stack {effect : State → State} (he : Computes i effect) (s : State) : (effect s).stack = s.stack := by
  rw [he.rest s]

theorem Computes.stackCapacity {effect : State → State} (he : Computes i effect) (s : State) :
    (effect s).stackCapacity = s.stackCapacity := by
  rw [he.rest s]

theorem Computes.inv {effect : State → State} (he : Computes i effect) (s : State) (hinv : s.Inv) : (effect s).Inv := by
  rw [he.rest s]; exact hinv

/-- An entry below the top is not reached by writing above it. -/
theorem getElem?_set_above {stack : List Byte} {n k : Nat} {v : Byte} (h : k < n) : (stack.set n v)[k]? = stack[k]? :=
  List.getElem?_set_ne (by omega)

theorem Runs.moves {run : State → Result} (hr : Runs i run) (h : run s = .next t) : Moves i s t := by
  cases hr with
  | read src effect hlen he =>
    obtain ⟨v, -, rfl⟩ := readThen_eq_next_iff.1 h
    exact hlen ▸ .compute _ (he v)
  | implied effect hlen he =>
    cases h
    exact (show Mode.implied.length = i.length from hlen.symm) ▸ .compute _ he
  | store r m hlen =>
    obtain ⟨ea, -, hea, rfl⟩ := storeByte_eq_next_iff.1 h
    exact hlen ▸ .store ea _ s.flags hea .refl
  | modify m change hlen hflags hinert =>
    obtain ⟨ea, -, hea, rfl⟩ := modifyThen_mem_eq_next_iff.1 h
    exact hlen ▸ .store ea _ _ hea (hflags s _)
  | branch b hlen =>
    cases branch_eq.symm.trans h
    exact .jump _ fun hpc => by simp [hpc, hlen]
  | jump w hpc =>
    cases h
    exact .jump _ fun hf => by simp [hpc] at hf
  | jumpIndirect w hpc =>
    obtain ⟨target, -, ht⟩ := bind_eq_ok_iff.1 (finish_eq_next_iff.1 h)
    cases ht
    exact .jump _ fun hf => by simp [hpc] at hf
  | call w hi =>
    obtain ⟨u, hu, ht⟩ := bind_eq_ok_iff.1 (finish_eq_next_iff.1 h)
    obtain ⟨hroom, rfl⟩ := stackPush16_eq_ok_iff.1 hu
    cases ht
    exact .raise _ _ _ _ (by simp [hi]) hroom (by simp)
      (fun k hk => by rw [getElem?_set_above (by omega), getElem?_set_above hk]) .refl (by simp [setsPc, hi])
  | ret hi =>
    obtain ⟨⟨w, u⟩, hu, ht⟩ := bind_eq_ok_iff.1 (finish_eq_next_iff.1 h)
    obtain ⟨-, low, high, -, -, rfl, rfl⟩ := stackPop16_eq_ok_iff.1 hu
    cases ht
    exact .moveTop _ id _ (by simp [hi]) (.inl (Nat.sub_le _ _)) .unchanged (by simp [setsPc, hi])
  | brk hi =>
    obtain ⟨hroom, target, -, rfl⟩ := takeBreak_eq_ok_iff.1 (finish_eq_next_iff.1 h)
    have hf : FlagsKept i.mnemonic s.flags { s.flags with b := true, i := true } :=
      (FlagsKept.set .refl (ψ := .b) (by rw [hi]; rfl) true).set (ψ := .i) (by rw [hi]; rfl) true
    exact .raise _ _ _ _ (by simp [hi]) hroom (by simp)
      (fun k hk => by rw [getElem?_set_above (by omega), getElem?_set_above (by omega), getElem?_set_above hk]) hf
      (by simp [setsPc, hi])
  | rti hi =>
    obtain ⟨-, p, low, high, -, -, -, rfl⟩ := returnFromBreak_eq_ok_iff.1 (finish_eq_next_iff.1 h)
    exact .moveTop _ _ _ (by simp [hi]) (.inl (Nat.sub_le _ _)) (.unpack (fun φ => by rw [hi]; cases φ <;> rfl) p) (by simp [setsPc, hi])
  | push value hlen hi hinert =>
    obtain ⟨hroom, rfl⟩ := pushThen_eq_next_iff.1 h
    exact .raise _ _ _ _ (List.mem_append_left [_, _] hi) hroom (by simp) (fun k hk => getElem?_set_above hk) .refl
      fun _ => by rw [hlen]; rfl
  | pull effect hlen hi he =>
    obtain ⟨-, v, -, rfl⟩ := pullThen_eq_next_iff.1 h
    exact .moveTop _ _ _ (List.mem_append_left [_, _, _] hi) (.inl (Nat.sub_le _ _)) (he v)
      fun _ => by rw [(he v).pc, hlen]
  | txs hlen hi =>
    unfold execTxs at h
    split at h
    · cases h
    · cases h
      exact .moveTop _ id _ (by simp [hi]) (.inr (by omega)) .unchanged fun _ => by rw [hlen]; rfl

/-- What a completed instruction did. -/
theorem exec_moves (h : exec i s = .next t) : Moves i s t := (exec_runs i).moves h

theorem Moves.flags (h : Moves i s t) : FlagsKept i.mnemonic s.flags t.flags := by
  cases h with
  | compute effect he => exact he.flags s
  | store ea v f hea hf => exact hf
  | jump p hp => exact .refl
  | raise stack n f p hi hn hlen hbelow hf hp => exact hf
  | moveTop n effect p hi hn he hp => exact he.flags { s with sp := n }

theorem Moves.regs (h : Moves i s t) : RegsKept i s t := by
  cases h with
  | compute effect he => exact he.regs s
  | store | jump | raise => exact fun r _ => rfl
  | moveTop n effect p hi hn he hp => exact he.regs { s with sp := n }

theorem Moves.pc (h : Moves i s t) (hpc : setsPc i s.flags = false) : t.pc = s.pc + BitVec.ofNat 16 i.length := by
  cases h with
  | compute effect he => rw [State.advance_pc, he.pc]
  | store => rfl
  | jump p hp => exact hp hpc
  | raise stack n f p hi hn hlen hbelow hf hp => exact hp hpc
  | moveTop n effect p hi hn he hp => exact hp hpc

theorem Moves.stackCapacity (h : Moves i s t) : t.stackCapacity = s.stackCapacity := by
  cases h with
  | compute effect he => exact he.stackCapacity s
  | store | jump | raise => rfl
  | moveTop n effect p hi hn he hp => exact he.stackCapacity _

theorem Moves.sp (h : Moves i s t)
    (hi : i.mnemonic ∉ [Mnemonic.pha, .php, .jsr, .brk, .pla, .plp, .rts, .rti, .txs]) : t.sp = s.sp := by
  cases h with
  | compute effect he => exact he.sp s
  | store | jump => rfl
  | raise stack n f p hi' => exact absurd (List.mem_append_left [_, _, _, _, _] hi') hi
  | moveTop n effect p hi' => exact absurd (List.mem_append_right [_, _, _, _] hi') hi

theorem Moves.stack (h : Moves i s t) (hi : i.mnemonic ∉ [Mnemonic.pha, .php, .jsr, .brk]) : t.stack = s.stack := by
  cases h with
  | compute effect he => exact he.stack s
  | store | jump => rfl
  | raise stack n f p hi' => exact absurd hi' hi
  | moveTop n effect p hi' hn he => exact he.stack _

theorem Moves.stack_below (h : Moves i s t) {k : Nat} (hk : k < s.sp) : t.stack[k]? = s.stack[k]? := by
  cases h with
  | compute effect he => exact congrArg (·[k]?) (he.stack s)
  | store | jump => rfl
  | raise stack n f p hi hn hlen hbelow => exact hbelow k hk
  | moveTop n effect p hi hn he => exact congrArg (·[k]?) (he.stack _)

theorem Moves.inv (h : Moves i s t) (hinv : s.Inv) : t.Inv := by
  cases h with
  | compute effect he => exact he.inv s hinv
  | store ea v f hea hf =>
    obtain ⟨hsp, hstack, hcap, hlen, hwf, hbound⟩ := hinv
    refine ⟨hsp, hstack, hcap, hlen, Memory.wf_write hwf _ v, fun cell hcell => ?_⟩
    rcases Memory.mem_write hcell with haddr | hold
    · exact haddr ▸ hea
    · exact hbound cell hold
  | jump p hp => exact hinv
  | raise stack n f p hi hn hlen hbelow hf hp =>
    obtain ⟨-, hstack, hrest⟩ := hinv
    exact ⟨hn, hlen.trans hstack, hrest⟩
  | moveTop n effect p hi hn he hp =>
    obtain ⟨hsp, hrest⟩ := hinv
    exact he.inv { s with sp := n } ⟨hn.elim (·.trans hsp) id, hrest⟩

/-- Settles O6: a completed step fetched an instruction, and whatever that did keeps the invariant. -/
theorem stepKeepsInvariant : Obligations.StepKeepsInvariant := by
  intro s t hinv hstep
  obtain ⟨i, -, hexec⟩ := step_eq_next_iff.1 hstep
  exact (exec_moves hexec).inv hinv

/-- Settles O41: the flags a completed instruction may write are those of the table of R40. -/
theorem flagsChangeOnlyByTheirWriters : Obligations.FlagsChangeOnlyByTheirWriters := by
  intro i s t hexec
  have hkept := (exec_moves hexec).flags
  exact ⟨fun h => ⟨hkept .z (decide_eq_false h), hkept .n (decide_eq_false h)⟩, fun h => hkept .v (decide_eq_false h),
    fun h => hkept .b (decide_eq_false h), fun h => hkept .d (decide_eq_false h), fun h => hkept .i (decide_eq_false h),
    fun h => hkept .c (decide_eq_false h)⟩

/-- Settles O42: the registers a completed instruction may write are those of R21 to R23. -/
theorem registersChangeOnlyByTheirWriters : Obligations.RegistersChangeOnlyByTheirWriters := by
  intro i s t hexec
  have hkept := (exec_moves hexec).regs
  exact ⟨fun h hmode => hkept .a (by simpa [writesReg, hmode] using h), fun h => hkept .x (decide_eq_false h),
    fun h => hkept .y (decide_eq_false h)⟩

/-- Settles O43: entries are written above the top only, and only by a push. -/
theorem stackChangesOnlyByStackInstructions : Obligations.StackChangesOnlyByStackInstructions := by
  intro i s t hexec
  have h := exec_moves hexec
  exact ⟨h.stackCapacity, h.sp, h.stack, fun _ => h.stack_below⟩

/-- `pc_set` is true for the unconditional transfers and the taken branches (R29). -/
theorem setsPc_eq_true_iff (i : Instr) (f : Flags) : setsPc i f = true ↔ i.mnemonic ∈ [.jmp, .jsr, .rts, .brk, .rti]
    ∨ (i.mnemonic = .bcc ∧ f.c = false) ∨ (i.mnemonic = .bcs ∧ f.c = true)
    ∨ (i.mnemonic = .bne ∧ f.z = false) ∨ (i.mnemonic = .beq ∧ f.z = true)
    ∨ (i.mnemonic = .bpl ∧ f.n = false) ∨ (i.mnemonic = .bmi ∧ f.n = true)
    ∨ (i.mnemonic = .bvc ∧ f.v = false) ∨ (i.mnemonic = .bvs ∧ f.v = true) := by
  unfold setsPc
  cases i.mnemonic <;> simp

/-- Settles O45: what does not write pc advances it by the bytes of its encoding. -/
theorem pcAdvancesByLengthUnlessWritten : Obligations.PcAdvancesByLengthUnlessWritten := by
  intro i s t hexec
  rw [encode_length]
  exact ⟨(exec_moves hexec).pc, setsPc_eq_true_iff i s.flags⟩

end Sys2Proof.Machine
end

section
/-! SUPPORT. Flags D and I change nothing but themselves: two runs that differ in one of them (R35, R36). -/

namespace Sys2Proof.Machine

variable {i : Instr} {φ : Flag}

theorem memWrite_withFlag (value : Bool) (s : State) (addr : Word) (v : Byte) :
    memWrite (withFlag φ value s) addr v = (memWrite s addr v).map (withFlag φ value) := by
  by_cases h : addr.toNat < s.memLen <;> simp [memWrite, withFlag, h, Except.map, State.setFlags]

/-- An instruction that neither writes an inert flag nor packs the flags runs the same whatever the flag's value. -/
theorem Runs.run_withFlag {run : State → Result} (hr : Runs i run) (hφ : φ.Inert) (hw : writesFlag i.mnemonic φ = false)
    (hpack : i.mnemonic ∉ [Mnemonic.php, .brk]) (value : Bool) (s : State) :
    run (withFlag φ value s) = mapNext (withFlag φ value) (run s) := by
  cases hr with
  | read src effect hlen he =>
    simp only [readThen, get_withFlag]
    cases src.get s with
    | error f => rfl
    | ok v => exact congrArg (fun u => Host.Outcome.next (State.advance u src.length)) ((he v).inert hφ hw value s)
  | implied effect hlen he =>
    exact congrArg impliedThen (he.inert hφ hw value s)
  | store r m hlen =>
    have hreg : (withFlag φ value s).getReg r = s.getReg r := by cases r <;> rfl
    simp only [storeReg, storeByte, effectiveAddress_withFlag, hreg]
    cases effectiveAddress s m with
    | error f => rfl
    | ok ea =>
      simp only [bind, Except.bind, memWrite_withFlag]
      cases memWrite s ea (s.getReg r) <;> rfl
  | modify m change hlen hflags hinert =>
    simp only [modifyThen, effectiveAddress_withFlag, hinert hφ]
    cases effectiveAddress s m with
    | error f => rfl
    | ok ea =>
      have hread : memRead (withFlag φ value s) ea = memRead s ea := rfl
      simp only [bind, Except.bind, hread]
      cases memRead s ea with
      | error f => rfl
      | ok v =>
        simp only [memWrite_withFlag]
        cases memWrite s ea (change s v).1 <;> rfl
  | branch b hlen =>
    have hcond : setsPc i (withFlag φ value s).flags = setsPc i s.flags := setsPc_set_inert value hφ i s.flags
    simp only [hcond]
    cases setsPc i s.flags <;> rfl
  | jump w hpc => rfl
  | jumpIndirect w hpc =>
    have hread : memRead16 (withFlag φ value s) w = memRead16 s w := rfl
    simp only [execJmpInd, indirectTarget, hread]
    cases memRead16 s w <;> rfl
  | call w hi =>
    simp only [execJsrAbs, stackPush16_withFlag]
    change finish ((stackPush16 s (s.pc + 2)).map _ >>= _) = _
    cases stackPush16 s (s.pc + 2) <;> rfl
  | ret hi =>
    simp only [execRts, stackPop16_withFlag]
    cases stackPop16 s <;> rfl
  | brk hi => simp [hi] at hpack
  | rti hi => rcases hφ with rfl | rfl <;> simp [hi, writesFlag] at hw
  | push byte hlen hi hinert =>
    have hbyte : byte (withFlag φ value s) = byte s := hinert (by rintro h; simp [h] at hpack) φ value s
    simp only [pushThen, hbyte, stackPush_withFlag]
    cases stackPush s (byte s) <;> rfl
  | pull effect hlen hi he =>
    simp only [pullThen, stackPop_withFlag]
    cases stackPop s with
    | error f => rfl
    | ok p => exact congrArg (fun u => Host.Outcome.next (State.advance u 1)) ((he p.1).inert hφ hw value p.2)
  | txs hlen hi =>
    unfold execTxs
    change (if s.stackCapacity < s.x.toNat then _ else _) = _
    split <;> rfl

/-- PLP overwrites every flag (R263). -/
theorem execPlp_withFlag (value : Bool) (s : State) : execPlp (withFlag φ value s) = execPlp s := by
  simp only [execPlp, pullThen, stackPop_withFlag]
  cases stackPop s <;> rfl

/-- RTI overwrites every flag (R301). -/
theorem execRti_withFlag (value : Bool) (s : State) : execRti (withFlag φ value s) = execRti s := by
  simp only [execRti, returnFromBreak, stackPop_withFlag]
  cases stackPop s <;> rfl

/-- The instructions that write D or I without packing the flags have one form each. -/
theorem eq_of_mnemonic_writes_inert : (i.mnemonic = .plp → i = .plp) ∧ (i.mnemonic = .rti → i = .rti)
    ∧ (i.mnemonic = .sed → i = .sed) ∧ (i.mnemonic = .cld → i = .cld)
    ∧ (i.mnemonic = .sei → i = .sei) ∧ (i.mnemonic = .cli → i = .cli) := by
  cases i <;> simp [Instr.mnemonic, Instr.form]

theorem exec_withFlag_of_restores (h : i.mnemonic = .plp ∨ i.mnemonic = .rti) (value : Bool) (s : State) :
    exec i (withFlag φ value s) = exec i s := by
  obtain ⟨hplp, hrti, -⟩ := eq_of_mnemonic_writes_inert (i := i)
  rcases h with h | h
  · rw [hplp h]; exact execPlp_withFlag value s
  · rw [hrti h]; exact execRti_withFlag value s

/-- What a completed or faulting instruction does, said of the run with an inert flag set to a value. -/
theorem exec_withFlag_cases (hφ : φ.Inert) (hw : writesFlag i.mnemonic φ = false)
    (hpack : i.mnemonic ∉ [Mnemonic.php, .brk]) (s : State) (value : Bool) :
    (∀ t, exec i s = .next t →
        t.flags.get φ = s.flags.get φ ∧ exec i (withFlag φ value s) = .next (withFlag φ value t))
      ∧ ∀ f, exec i s = .fault f → exec i (withFlag φ value s) = .fault f := by
  rw [(exec_runs i).run_withFlag hφ hw hpack]
  exact ⟨fun t h => ⟨(exec_moves h).flags φ hw, by rw [h]; rfl⟩, fun f h => by rw [h]; rfl⟩

/-- Settles O46: D and I are inert flags, which SED, CLD, SEI, CLI set to a constant and PLP, RTI overwrite. -/
theorem decimalAndInterruptFlagsAreInert : Obligations.DecimalAndInterruptFlagsAreInert := by
  intro i s value
  obtain ⟨-, -, hsed, hcld, hsei, hcli⟩ := eq_of_mnemonic_writes_inert (i := i)
  refine ⟨fun h => ?_, fun h => ?_, fun h => ?_, fun h => ?_⟩
  · simp only [List.mem_cons, List.not_mem_nil, or_false] at h
    rcases h with h | h | h
    · rw [hsed h]; rfl
    · rw [hcld h]; rfl
    · exact exec_withFlag_of_restores (φ := .d) h value s
  · simp only [List.mem_cons, List.not_mem_nil, or_false] at h
    rcases h with h | h | h
    · rw [hsei h]; rfl
    · rw [hcli h]; rfl
    · exact exec_withFlag_of_restores (φ := .i) h value s
  · exact exec_withFlag_cases (φ := .d) (.inl rfl) (by simp_all [writesFlag]) (by simp_all) s value
  · exact exec_withFlag_cases (φ := .i) (.inr rfl) (by simp_all [writesFlag]) (by simp_all) s value

end Sys2Proof.Machine
end

section
/-! SUPPORT. The stack as bytes and words, and the status byte (R37 to R39, R46 to R48). -/

namespace Sys2Proof.Machine

/-! ### Push and pull -/

/-- With the invariant, every index below sp holds an entry (R45). -/
theorem State.Inv.exists_entry {s : State} (hinv : s.Inv) {k : Nat} (hk : k < s.sp) : ∃ v, s.stack[k]? = some v := by
  obtain ⟨hsp, hstack, -⟩ := hinv
  exact ⟨s.stack[k]'(by omega), List.getElem?_eq_getElem _⟩

/-- A pull from an empty stack faults (R47). -/
theorem stackPop_of_empty {s : State} (h : s.sp = 0) : stackPop s = .error (.stackFault .pop) := if_pos h

/-- Settles O12: both operations are inverted by their laws, and the invariant gives the entry under the top. -/
theorem pushAndPullFollowTheirRules : Obligations.PushAndPullFollowTheirRules := by
  intro s v hinv
  refine ⟨fun hroom => ⟨stackPush_eq_ok_iff.2 ⟨hroom, rfl⟩, ?_⟩, fun hfull => ?_, stackPop_of_empty, fun hpos => ?_⟩
  · obtain ⟨-, hstack, -⟩ := hinv
    exact List.getElem?_set_self (by omega)
  · exact stackPush_eq_error_iff.2 ⟨hfull.ge, rfl⟩
  · obtain ⟨top, htop⟩ := hinv.exists_entry (Nat.sub_lt hpos one_pos)
    exact ⟨top, htop, stackPop_eq_ok_iff.2 ⟨hpos.ne', htop, rfl⟩⟩

/-- Of two bytes pushed on top of each other, each is at its place (R48). -/
theorem getElem?_set_set {stack : List Byte} {n : Nat} {u v : Byte} (h : n + 1 < stack.length) :
    ((stack.set n u).set (n + 1) v)[n]? = some u ∧ ((stack.set n u).set (n + 1) v)[n + 1]? = some v := by
  constructor
  · rw [getElem?_set_above (Nat.lt_succ_self n), List.getElem?_set_self (by omega)]
  · exact List.getElem?_set_self (by simpa using h)

/-- Settles O13: the two bytes of a word give it back. -/
theorem sixteenBitPushIsHighByteFirst : Obligations.SixteenBitPushIsHighByteFirst := by
  intro s w hinv
  refine ⟨fun hroom => ⟨_, stackPush16_eq_ok_iff.2 ⟨hroom, rfl⟩, rfl, ?_⟩,
    fun hfull => stackPush16_eq_error_iff.2 ⟨hfull, rfl⟩, ?_⟩
  · obtain ⟨-, hstack, -⟩ := hinv
    obtain ⟨hhi, hlo⟩ := getElem?_set_set (u := hi8 w) (v := lo8 w) (by omega : s.sp + 1 < s.stack.length)
    exact stackPop16_eq_ok_iff.2 ⟨Nat.le_add_left .., lo8 w, hi8 w, hlo, hhi, (wordOf_hi8_lo8 w).symm, rfl⟩
  · rw [hi8_toNat, lo8_toNat]
    omega

/-! ### The status byte -/

/-- Bit 7 of a byte is set from 128 on. -/
theorem getLsbD_seven_iff (v : Byte) : v.getLsbD 7 = true ↔ 128 ≤ v.toNat := by
  rw [← BitVec.msb_eq_getLsbD_last v, BitVec.msb_eq_decide]
  simp

/-- Settles O14: no byte is both 0 and 128 or more. -/
theorem setZNIsZeroAndBitSeven : Obligations.SetZNIsZeroAndBitSeven := by
  intro f v
  have hz : (f.setZN v).z = true ↔ v.toNat = 0 := by simp [Flags.setZN, BitVec.toNat_eq]
  have hn : (f.setZN v).n = true ↔ 128 ≤ v.toNat := getLsbD_seven_iff v
  exact ⟨hz, hn, rfl, fun ⟨h0, h7⟩ => by have := hz.1 h0; have := hn.1 h7; omega⟩

/-- The sum that Pack forms fits in a byte (R38). -/
theorem Flags.pack_toNat (f : Flags) : f.pack.toNat = f.n.toNat * 128 + f.v.toNat * 64 + 32 + f.b.toNat * 16 + f.d.toNat * 8
    + f.i.toNat * 4 + f.z.toNat * 2 + f.c.toNat := by
  have := f.n.toNat_le; have := f.v.toNat_le; have := f.b.toNat_le; have := f.d.toNat_le
  have := f.i.toNat_le; have := f.z.toNat_le; have := f.c.toNat_le
  rw [Flags.pack, BitVec.toNat_ofNat]
  omega

/-- `Unpack(Pack())` changes no flag (R39). -/
@[simp] theorem Flags.unpack_pack (f : Flags) : Flags.unpack f.pack = f := by
  obtain ⟨n, v, b, d, i, z, c⟩ := f
  revert n v b d i z c
  decide

/-- Bit 5 of the packed byte is always 1 (R38). -/
theorem Flags.pack_bit_five (f : Flags) : f.pack.getLsbD 5 = true := by
  obtain ⟨n, v, b, d, i, z, c⟩ := f
  revert n v b d i z c
  decide

/-- `Pack()` after `Unpack(p)` is p with bit 5 set (R39). -/
theorem Flags.pack_unpack (p : Byte) : (Flags.unpack p).pack = p ||| 0x20 := by
  have hbits := Flags.unpack_pack (Flags.unpack p)
  simp only [Flags.unpack, Flags.mk.injEq] at hbits
  obtain ⟨h7, h6, h4, h3, h2, h1, h0⟩ := hbits
  have h5 := Flags.pack_bit_five (Flags.unpack p)
  refine BitVec.eq_of_getLsbD_eq fun k hk => ?_
  interval_cases k <;> simp_all [Flags.unpack]
/-- Settles O15: the packed sum, and the two round trips. -/
theorem packAndUnpackTheStatusByte : Obligations.PackAndUnpackTheStatusByte :=
  ⟨Flags.pack_toNat, fun _ => rfl, Flags.unpack_pack, Flags.pack_unpack⟩

end Sys2Proof.Machine
end

section
/-! SUPPORT. The fetch against the decoder (R26, R90, R91, R93, R110, R295). -/

namespace Sys2Proof

/-- The bytes an instruction of this shape has (R92). -/
def Shape.length : Shape → Nat
  | .one _ => 1
  | .two _ => 2
  | .three _ => 3

end Sys2Proof

namespace Sys2Proof.Machine

open Sys2Proof.Claims

variable {s : State} {opc : Byte}

theorem memRead_of_unbound {addr : Word} (h : s.memLen ≤ addr.toNat) :
    memRead s addr = .error (.outOfBoundsAccess addr.toNat) := memRead_eq_error_iff.2 ⟨h, rfl⟩

/-! ### What the fetch does with each kind of opcode byte -/

theorem fetch_of_unbound (h : s.memLen ≤ s.pc.toNat) : fetch s = .error (.outOfBoundsAccess s.pc.toNat) := by
  simp only [fetch, memRead_of_unbound h]; rfl

section
variable (hopc : memRead s s.pc = .ok opc)
include hopc

theorem fetch_of_illegal (h : decodeOpcode opc = none) : fetch s = .error (.illegalOpcode opc s.pc) := by
  simp only [fetch, hopc, bind, Except.bind, h]

theorem fetch_of_one {i : Instr} (h : decodeOpcode opc = some (.one i)) : fetch s = .ok i := by
  simp only [fetch, hopc, bind, Except.bind, h]; rfl

theorem fetch_of_two {mk : Byte → Instr} (h : decodeOpcode opc = some (.two mk)) :
    fetch s = memRead s (s.pc + 1) >>= fun b => .ok (mk b) := by
  simp only [fetch, hopc, bind, Except.bind, h]; rfl

theorem fetch_of_three {mk : Word → Instr} (h : decodeOpcode opc = some (.three mk)) :
    fetch s = memRead s (s.pc + 1) >>= fun lo => memRead s (s.pc + 2) >>= fun hi => .ok (mk (wordOf hi lo)) := by
  simp only [fetch, hopc, bind, Except.bind, h]; rfl

end

/-! ### Decoded bytes at pc -/

/-- When the bytes from pc on decode to an instruction, the fetch gives it. -/
theorem fetch_of_decode {bytes rest : List Byte} {i : Instr}
    (hbytes : ∀ k v, bytes[k]? = some v → memRead s (s.pc + BitVec.ofNat 16 k) = .ok v)
    (hdecode : decode bytes = .ok (i, rest)) : fetch s = .ok i := by
  cases bytes with
  | nil => cases hdecode
  | cons opc tail =>
    have hopc : memRead s s.pc = .ok opc := by simpa using hbytes 0 opc rfl
    simp only [decode] at hdecode
    split at hdecode
    · cases hdecode
    · rename_i hrow
      cases hdecode
      exact fetch_of_one hopc hrow
    · rename_i mk b rest' hrow
      cases hdecode
      have hb : memRead s (s.pc + 1) = .ok b := hbytes 1 b rfl
      rw [fetch_of_two hopc hrow, hb]; rfl
    · cases hdecode
    · rename_i mk lo hi rest' hrow
      cases hdecode
      have hlo : memRead s (s.pc + 1) = .ok lo := hbytes 1 lo rfl
      have hhi : memRead s (s.pc + 2) = .ok hi := hbytes 2 hi rfl
      rw [fetch_of_three hopc hrow, hlo, hhi]; rfl
    · cases hdecode

/-- Settles O49: the fetch reads the bytes in the order the decoder does. -/
theorem stepRunsTheDecodedInstruction : Obligations.StepRunsTheDecodedInstruction :=
  fun _ _ _ _ hbytes hdecode => step_of_fetch (fetch_of_decode hbytes hdecode)

/-! ### The order of the fetch's faults -/

/-- The first byte of an encoding has a row in the table, of the length of the encoding. -/
theorem decodeOpcode_of_encode {i : Instr} (h : (encode i)[0]? = some opc) :
    ∃ shape, decodeOpcode opc = some shape ∧ shape.length = i.length := by
  cases i <;> cases h <;> exact ⟨_, rfl, rfl⟩

/-- The bytes that R110 lists have no row: each of them is looked up in the table. -/
theorem illegalBytes_have_no_row : illegalBytes.all (fun opc => (decodeOpcode opc).isNone) = true := by
  decide

theorem decodeOpcode_of_illegal (h : opc ∈ illegalBytes) : decodeOpcode opc = none :=
  Option.isNone_iff_eq_none.1 (List.all_eq_true.1 illegalBytes_have_no_row opc h)

/-- Settles O50: the opcode byte is read first, then looked up, then the operand bytes in ascending order. -/
theorem fetchFaultsInStepOrder : Obligations.FetchFaultsInStepOrder := by
  refine fun s => ⟨fun hpc => step_of_fetch_error (fetch_of_unbound hpc), fun opc hmem hopc => ?_,
    fun i opc hfirst hopc => ?_⟩
  · exact step_of_fetch_error (fetch_of_illegal hopc (decodeOpcode_of_illegal hmem))
  · obtain ⟨shape, hrow, hlen⟩ := decodeOpcode_of_encode hfirst
    rw [encode_length, ← hlen]
    cases shape with
    | one j => exact ⟨fun h => by simp [Shape.length] at h, fun h => by simp [Shape.length] at h⟩
    | two mk =>
      refine ⟨fun _ hlow => step_of_fetch_error ?_, fun h => by simp [Shape.length] at h⟩
      rw [fetch_of_two hopc hrow, memRead_of_unbound hlow]; rfl
    | three mk =>
      refine ⟨fun _ hlow => step_of_fetch_error ?_, fun _ hlow hhigh => step_of_fetch_error ?_⟩
      · rw [fetch_of_three hopc hrow, memRead_of_unbound hlow]; rfl
      · rw [fetch_of_three hopc hrow, memRead_eq_ok_iff.2 ⟨hlow, rfl⟩, memRead_of_unbound hhigh]; rfl

end Sys2Proof.Machine
end

section
/-! SUPPORT. The run: its moves, and that more fuel does not change a run that has ended (R31; log entry 8). -/

namespace Sys2Proof.Machine

variable {stop : List Report → State → Bool} {n : Nat} {reports : List Report} {s : State}

theorem run_of_stop (h : stop reports s = true) (n : Nat) : run stop n reports s = .stopped s := by
  cases n <;> simp [run, h]

section
variable (hgo : stop reports s = false)
include hgo

theorem run_zero_of_go : run stop 0 reports s = .unfinished s := by simp [run, hgo]

theorem run_succ_of_ok {t : State} {report : Report} (h : stepReport s = .ok t report) (n : Nat) :
    run stop (n + 1) reports s = run stop n (report :: reports) t := by simp [run, hgo, h]

theorem run_succ_of_fault {f : Fault} (h : stepReport s = .fault f) (n : Nat) :
    run stop (n + 1) reports s = .faulted f s := by simp [run, hgo, h]

theorem run_succ_of_refused {r : Refusal} (h : stepReport s = .refused r) (n : Nat) :
    run stop (n + 1) reports s = .refused r s := by simp [run, hgo, h]

end

/-- A step that faults is reported as that fault (R294). -/
theorem stepReport_of_fault {f : Fault} (h : step s = .fault f) : stepReport s = .fault f := by
  unfold step at h
  unfold stepReport
  cases hf : fetch s with
  | error g => simp_all
  | ok i => simp_all

/-- A run that has ended ends the same with more fuel. -/
theorem run_add_of_ended (stop : List Report → State → Bool) (n : Nat) :
    ∀ (m : Nat) (reports : List Report) (s : State), (∀ u, run stop m reports s ≠ .unfinished u) →
      run stop (m + n) reports s = run stop m reports s := by
  intro m
  induction m with
  | zero =>
    intro reports s hended
    cases hstop : stop reports s with
    | true => rw [run_of_stop hstop, run_of_stop hstop]
    | false => exact absurd (run_zero_of_go hstop) (hended s)
  | succ m ih =>
    intro reports s hended
    cases hstop : stop reports s with
    | true => rw [run_of_stop hstop, run_of_stop hstop]
    | false =>
      rw [Nat.add_right_comm]
      cases hstep : stepReport s with
      | ok t report =>
        rw [run_succ_of_ok hstop hstep] at hended ⊢
        rw [run_succ_of_ok hstop hstep]
        exact ih (report :: reports) t hended
      | fault f => rw [run_succ_of_fault hstop hstep, run_succ_of_fault hstop hstep]
      | refused r => rw [run_succ_of_refused hstop hstep, run_succ_of_refused hstop hstep]

/-- Settles O53: one equation of `run` for each way its next step can go. -/
theorem runAsksStopBeforeEachStep : Obligations.RunAsksStopBeforeEachStep := by
  refine fun stop n reports s => ⟨fun h => run_of_stop h n, fun f hgo hstep => ?_, fun t r hgo hstep => ?_,
    fun m => run_add_of_ended stop n m reports s⟩
  · exact run_succ_of_fault hgo (stepReport_of_fault hstep) n
  · exact run_succ_of_ok hgo hstep n

end Sys2Proof.Machine
end

section
/-! SUPPORT. Two steps: a status byte pushed and pulled back (R39, R261, R263, R300, R301). -/

namespace Sys2Proof.Machine

variable {s t u : State}

/-- A step at a one-byte instruction is its meaning. -/
theorem step_of_one {opc : Byte} {i : Instr} (hopc : memRead s s.pc = .ok opc) (hrow : decodeOpcode opc = some (.one i)) :
    step s = exec i s := step_of_fetch (fetch_of_one hopc hrow)

theorem core_run_two (h₁ : step s = .next u) (h₂ : step u = .next t) : Host.Core.run core 2 s = .next t := by
  have hs : core.step s = .next u := h₁
  have hu : core.step u = .next t := h₂
  simp only [Host.Core.run, hs, hu]

/-- The state a one-byte push instruction leaves (R260, R261). -/
def pushedState (s : State) (v : Byte) : State :=
  { s with stack := s.stack.set s.sp v, sp := s.sp + 1, pc := s.pc + 1 }

theorem exec_php_of_room (h : s.sp < s.stackCapacity) : exec .php s = .next (pushedState s s.flags.pack) :=
  pushThen_eq_next_iff.2 ⟨h, rfl⟩

theorem exec_plp_of_entry {p : Byte} (hsp : s.sp ≠ 0) (hp : s.stack[s.sp - 1]? = some p) :
    exec .plp s = .next { s with flags := Flags.unpack p, sp := s.sp - 1, pc := s.pc + 1 } :=
  pullThen_eq_next_iff (effect := fun p t => t.setFlags (Flags.unpack p)).2 ⟨hsp, p, hp, rfl⟩

theorem exec_brk_of_room {target : Word} (hroom : s.sp + 3 ≤ s.stackCapacity)
    (hvector : memRead16 s Config.brkVector = .ok target) : exec .brk s = .next (brokenState s target) :=
  finish_eq_next_iff.2 (takeBreak_eq_ok_iff.2 ⟨hroom, target, hvector, rfl⟩)

theorem exec_rti_of_entries {p lo hi : Byte} (hsp : 3 ≤ s.sp) (hp : s.stack[s.sp - 1]? = some p)
    (hlo : s.stack[s.sp - 2]? = some lo) (hhi : s.stack[s.sp - 3]? = some hi) :
    exec .rti s = .next { s with flags := Flags.unpack p, sp := s.sp - 3, pc := wordOf hi lo } :=
  finish_eq_next_iff.2 (returnFromBreak_eq_ok_iff.2 ⟨hsp, p, lo, hi, hp, hlo, hhi, rfl⟩)

/-- PHP then PLP, in a state with room for one entry. -/
theorem php_plp (hinv : s.Inv) (hroom : s.sp < s.stackCapacity) (hphp : memRead s s.pc = .ok 0x08)
    (hplp : memRead s (s.pc + 1) = .ok 0x28) :
    ∃ t : State, Host.Core.run core 2 s = .next t ∧ t = { s with pc := s.pc + 2, stack := t.stack } := by
  obtain ⟨-, hstack, -⟩ := hinv
  have htop : (pushedState s s.flags.pack).stack[s.sp]? = some s.flags.pack := List.getElem?_set_self (by omega)
  have hpush := (step_of_one hphp rfl).trans (exec_php_of_room hroom)
  have hpull := (step_of_one (s := pushedState s s.flags.pack) hplp rfl).trans
    (exec_plp_of_entry (Nat.succ_ne_zero _) htop)
  refine ⟨_, core_run_two hpush hpull, ?_⟩
  apply State.eq_of_fields <;> simp [pushedState, BitVec.add_assoc]

/-- BRK then an RTI at the handler, in a state with room for three entries. -/
theorem brk_rti (hinv : s.Inv) {handler : Word} (hroom : s.sp + 3 ≤ s.stackCapacity) (hbrk : memRead s s.pc = .ok 0x00)
    (hvector : memRead16 s Config.brkVector = .ok handler) (hrti : memRead s handler = .ok 0x40) :
    ∃ t : State, Host.Core.run core 2 s = .next t
      ∧ t = { s with pc := s.pc + 2, flags := { s.flags with b := true }, stack := t.stack } := by
  obtain ⟨-, hstack, -⟩ := hinv
  obtain ⟨hhi, hlo⟩ := getElem?_set_set (u := hi8 (s.pc + 2)) (v := lo8 (s.pc + 2)) (by omega : s.sp + 1 < s.stack.length)
  have hbreak := (step_of_one hbrk rfl).trans (exec_brk_of_room hroom hvector)
  have hreturn := (step_of_one (s := brokenState s handler) hrti rfl).trans
    (exec_rti_of_entries (Nat.le_add_left ..) (List.getElem?_set_self (by simp; omega))
      ((getElem?_set_above (by simp [brokenState])).trans hlo) ((getElem?_set_above (by simp [brokenState])).trans hhi))
  refine ⟨_, core_run_two hbreak hreturn, ?_⟩
  apply State.eq_of_fields <;> simp [brokenState]

/-- Settles O60: the two pairs, each run as two steps. -/
theorem pushedStatusIsRestoredWhole : Obligations.PushedStatusIsRestoredWhole :=
  fun _ hinv => ⟨php_plp hinv, fun _ => brk_rti hinv⟩

end Sys2Proof.Machine
end

section
/-! SUPPORT. The access primitives, and memory across one instruction: what it may write (R61, R70) and which faults it may raise (R64, R290 to R293). -/

namespace Sys2Proof.Machine

/-! ### The access primitives -/

variable {s t : State} {i : Instr} {m : MemMode}

theorem memRead_of_bound {a : Word} (h : a.toNat < s.memLen) : memRead s a = .ok (s.mem.read a.toNat) :=
  memRead_eq_ok_iff.2 ⟨h, rfl⟩

theorem memWrite_of_bound {a : Word} (h : a.toNat < s.memLen) (v : Byte) :
    memWrite s a v = .ok { s with mem := s.mem.write a.toNat v } :=
  memWrite_eq_ok_iff.2 ⟨h, rfl⟩

/-- With MEM_LEN = 65536 every address is bound (R64). -/
theorem bound_of_full (hfull : s.memLen = 65536) (a : Word) : a.toNat < s.memLen := hfull ▸ a.isLt

/-- After a write of one byte, every other address reads as before. -/
theorem memRead_of_write {a ea : Word} {v : Byte} (hl : t.memLen = s.memLen) (hm : t.mem = s.mem.write ea.toNat v)
    (hne : a ≠ ea) : memRead t a = memRead s a := by
  have haddr : a.toNat ≠ ea.toNat := fun h => hne (BitVec.eq_of_toNat_eq h)
  simp only [memRead, hl, hm, Memory.read_write_other v haddr]

/-- Settles O7: the laws of `memRead` and `memWrite` on both sides of MEM_LEN. -/
theorem memoryAccessesAreBoundsChecked : Obligations.MemoryAccessesAreBoundsChecked := by
  intro s a v hinv
  obtain ⟨-, -, -, -, hwf, -⟩ := hinv
  refine ⟨fun hbound => ⟨memRead_of_bound hbound, _, memWrite_of_bound hbound v, rfl, ?_, fun a' => memRead_of_write rfl rfl⟩,
    fun hunbound => ⟨memRead_of_unbound hunbound, memWrite_eq_error_iff.2 ⟨hunbound, rfl⟩⟩, fun hfull => ?_⟩
  · exact memRead_eq_ok_iff.2 ⟨hbound, Memory.read_write_same hwf _ v⟩
  · have hbound := bound_of_full hfull a
    exact ⟨⟨_, memRead_of_bound hbound⟩, _, memWrite_of_bound hbound v⟩

/-- Settles O8: a 16-bit read is its two reads in order. -/
theorem twoByteReadIsLowByteFirst : Obligations.TwoByteReadIsLowByteFirst := by
  intro s a
  have hnext : BitVec.ofNat 16 (a.toNat + 1) = a + 1 := by simp [BitVec.ofNat_add]
  rw [hnext]
  exact ⟨fun lo hi hlo hhi => memRead16_eq_ok_iff.2 ⟨lo, hi, hlo, hhi, (wordOf_eq_ofNat hi lo).symm⟩,
    fun f hlo => memRead16_eq_error_iff.2 (.inl hlo), fun lo f hlo hhi => memRead16_eq_error_iff.2 (.inr ⟨lo, hlo, hhi⟩)⟩

/-! ### What an instruction writes -/

/-- Memory and MEM_LEN are as before. -/
structure MemKept (s t : State) : Prop where
  memLen : t.memLen = s.memLen
  mem : t.mem = s.mem

/-- Memory is as before but for one byte, at the effective address of the mode. -/
structure WrittenAt (m : MemMode) (s t : State) : Prop where
  memLen : t.memLen = s.memLen
  write : ∃ ea v, effectiveAddress s m = .ok ea ∧ t.mem = s.mem.write ea.toNat v

/-- What may happen to memory, by the mode through which an instruction stores, if it does. -/
def MemoryEffect : Option MemMode → State → State → Prop
  | none => MemKept
  | some m => WrittenAt m

theorem MemoryEffect.memLen : ∀ {target : Option MemMode}, MemoryEffect target s t → t.memLen = s.memLen
  | none, h => MemKept.memLen h
  | some _, h => WrittenAt.memLen h

theorem readThen_memKept {src : Source} {effect : Byte → State} (h : readThen src s effect = .next t)
    (he : ∀ v, MemKept s (effect v)) : MemKept s t := by
  obtain ⟨v, -, rfl⟩ := readThen_eq_next_iff.1 h
  exact ⟨(he v).memLen, (he v).mem⟩

theorem branch_memKept {cond : Bool} {b : Byte} (h : branch cond b s = .next t) : MemKept s t := by
  cases branch_eq.symm.trans h
  exact ⟨rfl, rfl⟩

theorem pushThen_memKept {v : Byte} (h : pushThen s v = .next t) : MemKept s t := by
  obtain ⟨-, rfl⟩ := pushThen_eq_next_iff.1 h
  exact ⟨rfl, rfl⟩

theorem pullThen_memKept {effect : Byte → State → State} (h : pullThen s effect = .next t)
    (he : ∀ v u, MemKept u (effect v u)) : MemKept s t := by
  obtain ⟨-, v, -, rfl⟩ := pullThen_eq_next_iff.1 h
  exact ⟨(he v _).memLen, (he v _).mem⟩

theorem execJmpInd_memKept {w : Word} (h : execJmpInd w s = .next t) : MemKept s t := by
  obtain ⟨target, -, ht⟩ := bind_eq_ok_iff.1 (finish_eq_next_iff.1 h)
  cases ht
  exact ⟨rfl, rfl⟩

theorem execJsrAbs_memKept {w : Word} (h : execJsrAbs w s = .next t) : MemKept s t := by
  obtain ⟨u, hu, ht⟩ := bind_eq_ok_iff.1 (finish_eq_next_iff.1 h)
  obtain ⟨-, rfl⟩ := stackPush16_eq_ok_iff.1 hu
  cases ht
  exact ⟨rfl, rfl⟩

theorem execRts_memKept (h : execRts s = .next t) : MemKept s t := by
  obtain ⟨⟨w, u⟩, hu, ht⟩ := bind_eq_ok_iff.1 (finish_eq_next_iff.1 h)
  obtain ⟨-, lo, hi, -, -, rfl, rfl⟩ := stackPop16_eq_ok_iff.1 hu
  cases ht
  exact ⟨rfl, rfl⟩

theorem execBrk_memKept (h : execBrk s = .next t) : MemKept s t := by
  obtain ⟨-, target, -, rfl⟩ := takeBreak_eq_ok_iff.1 (finish_eq_next_iff.1 h)
  exact ⟨rfl, rfl⟩

theorem execRti_memKept (h : execRti s = .next t) : MemKept s t := by
  obtain ⟨-, p, lo, hi, -, -, -, rfl⟩ := returnFromBreak_eq_ok_iff.1 (finish_eq_next_iff.1 h)
  exact ⟨rfl, rfl⟩

theorem execTxs_memKept (h : execTxs s = .next t) : MemKept s t := by
  unfold execTxs at h
  split at h
  · cases h
  · cases h
    exact ⟨rfl, rfl⟩

theorem storeByte_writtenAt {v : Byte} (h : storeByte m v s = .next t) : WrittenAt m s t := by
  obtain ⟨ea, hea, -, rfl⟩ := storeByte_eq_next_iff.1 h
  exact ⟨rfl, ea, v, hea, rfl⟩

theorem modifyThen_writtenAt {f : Byte → Byte × Flags} (h : modifyThen (.mem m) s f = .next t) : WrittenAt m s t := by
  obtain ⟨ea, hea, -, rfl⟩ := modifyThen_mem_eq_next_iff.1 h
  exact ⟨rfl, ea, _, hea, rfl⟩

/-- A completed instruction writes memory at its store address only, and only when it has one (R70). -/
theorem exec_memoryEffect (h : exec i s = .next t) : MemoryEffect (Claims.storedTo i) s t := by
  cases i with
  -- completes in every state, and memory is no part of what it computes
  | adcImm | sbcImm | andImm | oraImm | eorImm | cmpImm | cpxImm | cpyImm | ldaImm | ldxImm | ldyImm
  | aslAcc | lsrAcc | rolAcc | rorAcc | inx | iny | dex | dey | tax | tay | txa | tya | tsx
  | clc | cld | cli | clv | sec | sed | sei | nop | jmpAbs =>
    cases h
    exact ⟨rfl, rfl⟩
  | adcZp | adcZpx | adcAbs | adcAbsx | adcAbsy | adcIndx | adcIndy
  | sbcZp | sbcZpx | sbcAbs | sbcAbsx | sbcAbsy | sbcIndx | sbcIndy
  | andZp | andZpx | andAbs | andAbsx | andAbsy | andIndx | andIndy
  | oraZp | oraZpx | oraAbs | oraAbsx | oraAbsy | oraIndx | oraIndy
  | eorZp | eorZpx | eorAbs | eorAbsx | eorAbsy | eorIndx | eorIndy
  | cmpZp | cmpZpx | cmpAbs | cmpAbsx | cmpAbsy | cmpIndx | cmpIndy | cpxZp | cpxAbs | cpyZp | cpyAbs | bitZp | bitAbs
  | ldaZp | ldaZpx | ldaAbs | ldaAbsx | ldaAbsy | ldaIndx | ldaIndy | ldxZp | ldxZpy | ldxAbs | ldxAbsy
  | ldyZp | ldyZpx | ldyAbs | ldyAbsx =>
    exact readThen_memKept h fun _ => ⟨rfl, rfl⟩
  | bcc | bcs | beq | bmi | bne | bpl | bvc | bvs => exact branch_memKept h
  | jmpInd => exact execJmpInd_memKept h
  | jsrAbs => exact execJsrAbs_memKept h
  | rts => exact execRts_memKept h
  | brk => exact execBrk_memKept h
  | rti => exact execRti_memKept h
  | pha | php => exact pushThen_memKept h
  | pla => exact pullThen_memKept (effect := fun v u => (u.setReg .a v).setZN v) h fun _ _ => ⟨rfl, rfl⟩
  | plp => exact pullThen_memKept (effect := fun p u => u.setFlags (Flags.unpack p)) h fun _ _ => ⟨rfl, rfl⟩
  | txs => exact execTxs_memKept h
  | staZp | staZpx | staAbs | staAbsx | staAbsy | staIndx | staIndy | stxZp | stxZpy | stxAbs | styZp | styZpx | styAbs =>
    exact storeByte_writtenAt h
  | aslZp | aslZpx | aslAbs | aslAbsx | lsrZp | lsrZpx | lsrAbs | lsrAbsx | rolZp | rolZpx | rolAbs | rolAbsx
  | rorZp | rorZpx | rorAbs | rorAbsx | incZp | incZpx | incAbs | incAbsx | decZp | decZpx | decAbs | decAbsx =>
    exact modifyThen_writtenAt h

/-- Settles O44: the one byte that may be written is at the effective address of the store. -/
theorem memoryChangesOnlyAtTheStoreAddress : Obligations.MemoryChangesOnlyAtTheStoreAddress := by
  intro i s t hexec
  have heffect := exec_memoryEffect hexec
  refine ⟨heffect.memLen, fun hnone a => ?_, fun m hsome => ?_⟩
  · have hkept : MemKept s t := by rwa [hnone] at heffect
    exact memRead_congr hkept.memLen hkept.mem a
  · have hwritten : WrittenAt m s t := by rwa [hsome] at heffect
    obtain ⟨ea, v, hea, hmem⟩ := hwritten.write
    exact ⟨ea, hea, fun a => memRead_of_write hwritten.memLen hmem⟩

/-! ### Which faults a step raises -/

/-- The faults instruction `i` may raise (R292, R293): each stack fault has its instructions, and an address is out of bounds
only at or above MEM_LEN. -/
inductive Raises (i : Instr) (s : State) : Fault → Prop
  | unbound (a : Word) (ha : s.memLen ≤ a.toNat) : Raises i s (.outOfBoundsAccess a.toNat)
  | full (hi : i.mnemonic ∈ [Mnemonic.pha, .php, .jsr, .brk]) : Raises i s (.stackFault .push)
  | empty (hi : i.mnemonic ∈ [Mnemonic.pla, .plp, .rts, .rti]) : Raises i s (.stackFault .pop)
  | topOutOfRange (hi : i.mnemonic = .txs) : Raises i s (.stackFault .txs)

variable {f : Fault}

theorem Raises.of_unbound : (∃ a : Word, s.memLen ≤ a.toNat ∧ f = .outOfBoundsAccess a.toNat) → Raises i s f := by
  rintro ⟨a, ha, rfl⟩
  exact .unbound a ha

theorem memRead_eq_error {a : Word} (h : memRead s a = .error f) :
    ∃ a : Word, s.memLen ≤ a.toNat ∧ f = .outOfBoundsAccess a.toNat :=
  ⟨a, memRead_eq_error_iff.1 h⟩

theorem memRead16_eq_error {a : Word} (h : memRead16 s a = .error f) :
    ∃ a : Word, s.memLen ≤ a.toNat ∧ f = .outOfBoundsAccess a.toNat := by
  rcases memRead16_eq_error_iff.1 h with hlo | ⟨_, -, hhi⟩
  · exact memRead_eq_error hlo
  · exact memRead_eq_error hhi

theorem Runs.raises {run : State → Result} (hr : Runs i run) (h : run s = .fault f) : Raises i s f := by
  cases hr with
  | read src effect hlen he => exact .of_unbound (get_eq_error (readThen_eq_fault_iff.1 h))
  | implied effect hlen he => cases h
  | store r m hlen =>
    rcases storeByte_eq_fault_iff.1 h with hea | ⟨ea, -, hunbound⟩
    · exact .of_unbound (effectiveAddress_eq_error hea)
    · exact .of_unbound ⟨ea, hunbound⟩
  | modify m change hlen hflags hinert =>
    rcases modifyThen_mem_eq_fault_iff.1 h with hea | ⟨ea, -, hunbound⟩
    · exact .of_unbound (effectiveAddress_eq_error hea)
    · exact .of_unbound ⟨ea, hunbound⟩
  | branch b hlen => cases branch_eq.symm.trans h
  | jump w hpc => cases h
  | jumpIndirect w hpc =>
    rcases bind_eq_error_iff.1 (finish_eq_fault_iff.1 h) with htarget | ⟨_, -, hset⟩
    · exact .of_unbound (memRead16_eq_error htarget)
    · cases hset
  | call w hi =>
    rcases bind_eq_error_iff.1 (finish_eq_fault_iff.1 h) with hpush | ⟨_, -, hset⟩
    · obtain ⟨-, rfl⟩ := stackPush16_eq_error_iff.1 hpush
      exact .full (by simp [hi])
    · cases hset
  | ret hi =>
    rcases bind_eq_error_iff.1 (finish_eq_fault_iff.1 h) with hpop | ⟨_, -, hset⟩
    · cases stackPop16_eq_error hpop
      exact .empty (by simp [hi])
    · cases hset
  | brk hi =>
    rcases takeBreak_eq_error_iff.1 (finish_eq_fault_iff.1 h) with ⟨-, rfl⟩ | ⟨-, hvector⟩
    · exact .full (by simp [hi])
    · exact .of_unbound (memRead16_eq_error hvector)
  | rti hi =>
    cases returnFromBreak_eq_error (finish_eq_fault_iff.1 h)
    exact .empty (by simp [hi])
  | push value hlen hi hinert =>
    obtain ⟨-, rfl⟩ := pushThen_eq_fault_iff.1 h
    exact .full (List.mem_append_left [_, _] hi)
  | pull effect hlen hi he =>
    cases pullThen_eq_fault h
    exact .empty (List.mem_append_left [_, _] hi)
  | txs hlen hi =>
    unfold execTxs at h
    split at h
    · cases h
      exact .topOutOfRange hi
    · cases h

/-- All that a faulting instruction can raise. -/
theorem exec_raises (h : exec i s = .fault f) : Raises i s f := (exec_runs i).raises h

/-- A fetch that faults: an unbound byte, or an opcode byte without a row (R110, R295). -/
theorem fetch_eq_error (h : fetch s = .error f) :
    (∃ a : Word, s.memLen ≤ a.toNat ∧ f = .outOfBoundsAccess a.toNat)
      ∨ ∃ opc, f = .illegalOpcode opc s.pc ∧ memRead s s.pc = .ok opc := by
  rcases bind_eq_error_iff.1 h with hpc | ⟨opc, hopc, -⟩
  · exact .inl (memRead_eq_error hpc)
  · cases hrow : decodeOpcode opc with
    | none =>
      cases (fetch_of_illegal hopc hrow).symm.trans h
      exact .inr ⟨opc, rfl, hopc⟩
    | some shape =>
      left
      cases shape with
      | one i => cases (fetch_of_one hopc hrow).symm.trans h
      | two mk =>
        rcases bind_eq_error_iff.1 ((fetch_of_two hopc hrow).symm.trans h) with hb | ⟨_, -, hmk⟩
        · exact memRead_eq_error hb
        · cases hmk
      | three mk =>
        rcases bind_eq_error_iff.1 ((fetch_of_three hopc hrow).symm.trans h) with hlo | ⟨_, -, hrest⟩
        · exact memRead_eq_error hlo
        · rcases bind_eq_error_iff.1 hrest with hhi | ⟨_, -, hmk⟩
          · exact memRead_eq_error hhi
          · cases hmk

/-- A step that faults: its fetch does, or the instruction it fetched (R26, R294). -/
theorem step_eq_fault_iff : step s = .fault f ↔ fetch s = .error f ∨ ∃ i, fetch s = .ok i ∧ exec i s = .fault f := by
  unfold step
  cases fetch s <;> simp

/-- Settles O48: an out-of-bounds address is a word at or above MEM_LEN, and there is none. -/
theorem fullMemoryNeverFaultsOutOfBounds : Obligations.FullMemoryNeverFaultsOutOfBounds := by
  intro s f hfull hstep
  rcases step_eq_fault_iff.1 hstep with hfetch | ⟨i, -, hexec⟩
  · rcases fetch_eq_error hfetch with ⟨a, hunbound, -⟩ | hillegal
    · exact absurd hunbound (bound_of_full hfull a).not_ge
    · exact .inr hillegal
  · cases exec_raises hexec with
    | unbound a hunbound => exact absurd hunbound (bound_of_full hfull a).not_ge
    | full | empty | topOutOfRange => exact .inl ⟨_, rfl⟩

end Sys2Proof.Machine
end

section
/-! SUPPORT. The decoder and the encoder against each other, through the opcode table (R90, R91, R92, R108, R110). -/

namespace Sys2Proof

open Sys2Proof.Claims Sys2Proof.Machine

variable {opc : Byte} {bytes rest : List Byte} {i : Instr}

/-! ### All that the decoder can do -/

/-- The bytes are an instruction and `rest`: a row of the table, then the operand bytes it asks for, low byte first (R67, R90). -/
inductive Decodes : List Byte → Instr → List Byte → Prop where
  | one {opc : Byte} {i : Instr} {rest : List Byte} (hrow : decodeOpcode opc = some (.one i)) :
      Decodes (opc :: rest) i rest
  | two {opc b : Byte} {mk : Byte → Instr} {rest : List Byte} (hrow : decodeOpcode opc = some (.two mk)) :
      Decodes (opc :: b :: rest) (mk b) rest
  | three {opc : Byte} {w : Word} {mk : Word → Instr} {rest : List Byte} (hrow : decodeOpcode opc = some (.three mk)) :
      Decodes (opc :: lo8 w :: hi8 w :: rest) (mk w) rest

/-- The two operand bytes of a row are any two bytes. -/
theorem Decodes.three_bytes {mk : Word → Instr} (hrow : decodeOpcode opc = some (.three mk)) (lo hi : Byte) (rest : List Byte) :
    Decodes (opc :: lo :: hi :: rest) (mk (wordOf hi lo)) rest := by
  simpa only [lo8_wordOf, hi8_wordOf] using Decodes.three (w := wordOf hi lo) (rest := rest) hrow

theorem Decodes.decode_eq (h : Decodes bytes i rest) : decode bytes = .ok (i, rest) := by
  cases h with
  | one hrow | two hrow | three hrow => simp [decode, hrow]

theorem decodes_of_decode (h : decode bytes = .ok (i, rest)) : Decodes bytes i rest := by
  cases bytes with
  | nil => cases h
  | cons opc tail =>
    simp only [decode] at h
    split at h
    · cases h
    · rename_i hrow
      cases h
      exact .one hrow
    · rename_i hrow
      cases h
      exact .two hrow
    · cases h
    · rename_i hrow
      cases h
      exact .three_bytes hrow _ _ _
    · cases h

/-- An opcode byte is rejected exactly when it has no row, whatever follows it (R110). -/
theorem decode_eq_illegalOpcode_iff : decode (opc :: rest) = .error (.illegalOpcode opc) ↔ decodeOpcode opc = none := by
  constructor
  · intro h
    simp only [decode] at h
    split at h
    · assumption
    all_goals cases h
  · intro hrow
    simp only [decode, hrow]

/-! ### The round trips -/

/-- The row of every instruction: its opcode byte asks for its operand. -/
theorem encode_decodes (i : Instr) (rest : List Byte) : Decodes (encode i ++ rest) i rest := by
  cases i <;> constructor <;> rfl

theorem decode_encode (i : Instr) (rest : List Byte) : decode (encode i ++ rest) = .ok (i, rest) :=
  (encode_decodes i rest).decode_eq

/-- What the table gives is encoded as the bytes it was read from: every row fits the encoder. -/
theorem Decodes.bytes_eq (h : Decodes bytes i rest) : bytes = encode i ++ rest := by
  cases h with
  | one hrow => rw [decodeOpcode_fits hrow]; rfl
  | two hrow => rw [(decodeOpcode_fits hrow _).1]; rfl
  | three hrow => rw [(decodeOpcode_fits hrow _).1]; rfl

theorem encode_injective : Function.Injective encode := by
  intro i j h
  have hdec : decode (encode i ++ []) = .ok (j, []) := h ▸ decode_encode j []
  cases (decode_encode i []).symm.trans hdec
  rfl

/-- Settles O54: every instruction has its row in the table. -/
theorem decodeOfEncodeIsTheInstruction : Obligations.DecodeOfEncodeIsTheInstruction :=
  fun i rest _ => decode_encode i rest

/-- Settles O55: every row of the table fits the encoder; an encoding is decoded to one instruction only. -/
theorem encodeOfDecodeIsTheBytes : Obligations.EncodeOfDecodeIsTheBytes :=
  ⟨fun _ _ _ h => (decodes_of_decode h).bytes_eq, fun _ _ h => encode_injective h⟩

/-! ### The illegal opcode bytes -/

/-- Every byte without a row is listed: all 256 bytes are looked up in the table, by their two hexadecimal digits. -/
theorem listed_of_no_row : ∀ hi < 16, ∀ lo < 16,
    (decodeOpcode (BitVec.ofNat 8 (hi * 16 + lo))).isNone = true → BitVec.ofNat 8 (hi * 16 + lo) ∈ illegalBytes := by
  decide

theorem mem_illegalBytes_iff : opc ∈ illegalBytes ↔ decodeOpcode opc = none := by
  refine ⟨decodeOpcode_of_illegal, fun hrow => ?_⟩
  have hopc : BitVec.ofNat 8 (opc.toNat / 16 * 16 + opc.toNat % 16) = opc := by
    rw [Nat.div_add_mod', BitVec.ofNat_toNat, BitVec.setWidth_eq]
  have hlisted := listed_of_no_row (opc.toNat / 16) (by omega) (opc.toNat % 16) (by omega)
  rw [hopc] at hlisted
  exact hlisted (Option.isNone_iff_eq_none.2 hrow)

theorem illegalBytes_nodup : illegalBytes.Nodup := by decide

/-- A fault leaves the state as it is (R294). -/
theorem stateAfter_of_fault {s : State} {f : Fault} (h : step s = .fault f) : stateAfter s = s := by
  simp only [stateAfter, h]

/-- Settles O56: the listed bytes are those without a row, and the fetch of such a byte faults. -/
theorem illegalBytesAreExactlyTheListed : Obligations.IllegalBytesAreExactlyTheListed := by
  refine ⟨fun opc rest => decode_eq_illegalOpcode_iff.trans mem_illegalBytes_iff.symm, rfl, illegalBytes_nodup,
    fun s opc hmem hopc => ?_⟩
  have hstep := step_of_fetch_error (fetch_of_illegal hopc (mem_illegalBytes_iff.1 hmem))
  exact ⟨hstep, stateAfter_of_fault hstep⟩

/-! ### The form is the opcode byte's -/

/-- The pair a row gives, whatever the operand. -/
def Shape.form : Shape → Mnemonic × Mode
  | .one i => i.form
  | .two mk => (mk 0).form
  | .three mk => (mk 0).form

theorem Decodes.form_eq (h : Decodes (opc :: bytes) i rest) : (decodeOpcode opc).map Shape.form = some i.form := by
  cases h with
  | one hrow => rw [hrow]; rfl
  | two hrow => rw [(decodeOpcode_fits hrow _).2, hrow]; rfl
  | three hrow => rw [(decodeOpcode_fits hrow _).2, hrow]; rfl

/-- An opcode byte with a row decodes when two bytes follow it. -/
theorem exists_decodes_of_row {sh : Shape} (hrow : decodeOpcode opc = some sh) (b₁ b₂ : Byte) :
    ∃ i rest, Decodes [opc, b₁, b₂] i rest := by
  cases sh with
  | one i => exact ⟨i, _, .one hrow⟩
  | two mk => exact ⟨mk b₁, _, .two hrow⟩
  | three mk => exact ⟨_, _, .three_bytes hrow b₁ b₂ []⟩

/-- Settles O57: the row of the opcode byte has the form, the encoding has the length, and a byte not listed has a row. -/
theorem opcodeByteAloneFixesFormAndLength : Obligations.OpcodeByteAloneFixesFormAndLength := by
  refine ⟨fun opc r₁ r₂ rest₁ rest₂ i₁ i₂ h₁ h₂ => ?_, fun opc b₁ b₂ hlegal => ?_, fun _ => rfl,
    rfl, rfl, rfl, rfl, rfl, rfl, rfl, rfl, rfl, rfl, rfl, rfl, rfl⟩
  · have hdec := decodes_of_decode h₁
    have hform : i₁.form = i₂.form := Option.some.inj (hdec.form_eq.symm.trans (decodes_of_decode h₂).form_eq)
    refine ⟨congrArg Prod.fst hform, congrArg Prod.snd hform, congrArg (fun f => f.2.length) hform, ?_⟩
    rw [hdec.bytes_eq, List.length_append, encode_length]
  · obtain ⟨sh, hrow⟩ := Option.ne_none_iff_exists'.1 (mt mem_illegalBytes_iff.2 hlegal)
    obtain ⟨i, rest, hdec⟩ := exists_decodes_of_row hrow b₁ b₂
    exact ⟨i, rest, hdec.decode_eq⟩

/-! ### Written bytes -/

theorem decode_of_encode_eq (h : encode i = bytes) : decode bytes = .ok (i, []) := by
  rw [← decode_encode i [], List.append_nil, h]

/-- Settles O58: the written bytes are the encodings of the instructions. -/
theorem writtenBytesDecodeToTheirInstructions : Obligations.WrittenBytesDecodeToTheirInstructions := by
  unfold Obligations.WrittenBytesDecodeToTheirInstructions
  and_intros <;> exact decode_of_encode_eq rfl

/-! ### The table by mnemonic -/

/-- Every instruction passes the two checks (R108, R109). -/
theorem Instr.wellFormed_eq_true (i : Instr) : i.wellFormed = true := by
  cases i <;> rfl

theorem Instr.mode_mem_modes (i : Instr) : i.mode ∈ i.mnemonic.modes :=
  List.contains_iff_mem.1 (Bool.and_elim_right i.wellFormed_eq_true)

/-- Only LDX and STX have a ZeroPageY form (R108). -/
theorem eq_ldx_or_stx_of_zeroPageY {n : Mnemonic} (h : Mode.zeroPageY ∈ n.modes) : n = .ldx ∨ n = .stx := by
  cases n <;> simp [Mnemonic.modes] at h ⊢

end Sys2Proof
end

section
/-! SUPPORT. Operand resolution in exact arithmetic (R97 to R107). -/

namespace Sys2Proof.Machine

variable {s : State} {z : Byte} {m : MemMode} {f : Fault}

/-! ### Words made of bytes -/

theorem zext16_eq_ofNat (b : Byte) : zext16 b = BitVec.ofNat 16 b.toNat := by
  apply BitVec.eq_of_toNat_eq
  simp [zext16]

/-- A byte sum stays in the zero page (R99, R100). -/
theorem zext16_add (b c : Byte) : zext16 (b + c) = BitVec.ofNat 16 ((b.toNat + c.toNat) % 256) := by
  rw [zext16_eq_ofNat, BitVec.toNat_add]

theorem add_zext16 (w : Word) (b : Byte) : w + zext16 b = BitVec.ofNat 16 ((w.toNat + b.toNat) % 65536) := by
  apply BitVec.eq_of_toNat_eq
  simp [zext16]

/-! ### The direct modes -/

/-- Settles O9: each sum in exact arithmetic; the table by mnemonic has ZeroPageY in two rows. -/
theorem directModesComputeTheirAddress : Obligations.DirectModesComputeTheirAddress := by
  refine fun s b w => ⟨congrArg Except.ok (zext16_eq_ofNat b), congrArg Except.ok (zext16_add b s.x),
    congrArg Except.ok (zext16_add b s.y), rfl, congrArg Except.ok (add_zext16 w s.x), congrArg Except.ok (add_zext16 w s.y),
    ?_, ?_, fun i hmode => eq_ldx_or_stx_of_zeroPageY (hmode ▸ i.mode_mem_modes)⟩
  · simp [MemMode.length, MemMode.mode, Mode.length]
  · simp [MemMode.length, MemMode.mode, Mode.length]

/-! ### The indirect modes -/

theorem zeroPagePointer_of_read {lo hi : Byte} (hlo : memRead s (zext16 z) = .ok lo)
    (hhi : memRead s (zext16 (z + 1)) = .ok hi) : zeroPagePointer s z = .ok (BitVec.ofNat 16 (hi.toNat * 256 + lo.toNat)) := by
  simp only [zeroPagePointer, hlo, hhi, bind, Except.bind, wordOf_eq_ofNat]; rfl

theorem zeroPagePointer_of_low_fault (hlo : memRead s (zext16 z) = .error f) : zeroPagePointer s z = .error f :=
  bind_eq_error_iff.2 (.inl hlo)

theorem zeroPagePointer_of_high_fault {lo : Byte} (hlo : memRead s (zext16 z) = .ok lo)
    (hhi : memRead s (zext16 (z + 1)) = .error f) : zeroPagePointer s z = .error f :=
  bind_eq_error_iff.2 (.inr ⟨lo, hlo, bind_eq_error_iff.2 (.inl hhi)⟩)

theorem effectiveAddress_indirectY_of_ok {b : Byte} {p : Word} (h : zeroPagePointer s b = .ok p) :
    effectiveAddress s (.indirectY b) = .ok (BitVec.ofNat 16 ((p.toNat + s.y.toNat) % 65536)) :=
  bind_eq_ok_iff.2 ⟨p, h, congrArg Except.ok (add_zext16 p s.y)⟩

theorem effectiveAddress_indirectY_of_error {b : Byte} (h : zeroPagePointer s b = .error f) :
    effectiveAddress s (.indirectY b) = .error f := bind_eq_error_iff.2 (.inl h)

/-- The high byte of a pointer is read from the next zero-page address (R105, R106). -/
theorem zext16_succ (z : Byte) : zext16 (z + 1) = BitVec.ofNat 16 ((z.toNat + 1) % 256) := zext16_add z 1

/-- Settles O10: both modes read the pointer at their zero-page address. -/
theorem indirectModesReadZeroPagePointers : Obligations.IndirectModesReadZeroPagePointers := by
  intro s b
  rw [← BitVec.toNat_add b s.x]
  simp only [← zext16_succ, ← zext16_eq_ofNat]
  refine ⟨fun lo hi hlo hhi => zeroPagePointer_of_read hlo hhi, fun f hlo => zeroPagePointer_of_low_fault hlo,
    fun lo f hlo hhi => zeroPagePointer_of_high_fault hlo hhi, fun lo hi hlo hhi => ?_,
    fun f hlo => effectiveAddress_indirectY_of_error (zeroPagePointer_of_low_fault hlo),
    fun lo f hlo hhi => effectiveAddress_indirectY_of_error (zeroPagePointer_of_high_fault hlo hhi), rfl, rfl⟩
  rw [effectiveAddress_indirectY_of_ok (zeroPagePointer_of_read hlo hhi), ← wordOf_eq_ofNat, wordOf_toNat]

/-! ### Operand reads and branch targets -/

theorem get_mem_of_ok {ea : Word} (h : effectiveAddress s m = .ok ea) : (Source.mem m).get s = memRead s ea := by
  simp only [Source.get, h, bind, Except.bind]

theorem get_mem_of_error (h : effectiveAddress s m = .error f) : (Source.mem m).get s = .error f :=
  bind_eq_error_iff.2 (.inl h)

/-- Settles O11: an immediate is its byte, a memory operand one read after resolution. -/
theorem operandReadIsImmediateOrMemoryByte : Obligations.OperandReadIsImmediateOrMemoryByte :=
  fun _ _ _ => ⟨rfl, rfl, fun _ => get_mem_of_ok, fun _ => get_mem_of_error⟩

/-- The branch target in exact arithmetic (R107). -/
theorem relativeTarget_toNat (s : State) (b : Byte) :
    ((relativeTarget s b).toNat : Int) = ((s.pc.toNat : Int) + 2 + b.toInt) % 65536 := by
  have hdisp : ((sext16 b).toNat : Int) = b.toInt % 65536 := by
    rw [sext16, BitVec.signExtend, BitVec.toNat_ofInt]
    omega
  simp only [relativeTarget, Mode.length, BitVec.toNat_add, BitVec.toNat_ofNat]
  omega

/-- Settles O31: the target in exact arithmetic, and the range of a signed byte. -/
theorem relativeTargetIsSignedFromNextInstruction : Obligations.RelativeTargetIsSignedFromNextInstruction :=
  fun s b => ⟨relativeTarget_toNat s b, BitVec.le_toInt b, Int.lt_add_one_iff.1 BitVec.toInt_lt, rfl⟩

end Sys2Proof.Machine
end

section
/-! SUPPORT. From the shared operations to the contracts of a reading, a storing and an Implied-mode mnemonic (R26, R27, R70, R95), and the loads, stores and transfers (R131 to R157, R212 to R215). -/

namespace Sys2Proof.Machine

open Sys2Proof.Claims

/-! ### The contract of a mnemonic, from what each of its encodings runs -/

/-- The encoding of an instruction that reads its operand and then makes the effect (R26, R109). -/
structure RunsAsRead (effect : State → Byte → State) (form : ReadForm) : Prop where
  encoded : encode form.instr = form.bytes
  length : form.bytes.length = form.src.length
  exec_eq : ∀ s, exec form.instr s = readThen form.src s (effect s)

/-- The encoding of an instruction that stores the value at its effective address (R70, R109). -/
structure RunsAsStore (value : State → Byte) (form : StoreForm) : Prop where
  encoded : encode form.instr = form.bytes
  length : form.bytes.length = form.mode.length
  exec_eq : ∀ s, exec form.instr s = storeByte form.mode (value s) s

theorem readsOperand_of_runsAsRead {forms : Byte → Word → List ReadForm} {effect : State → Byte → State}
    (hpc : ∀ s v, (effect s v).pc = s.pc) (hforms : ∀ b w, ∀ form ∈ forms b w, RunsAsRead effect form) :
    ReadsOperand forms effect := by
  intro b w s form hmem
  obtain ⟨hbytes, hlen, hexec⟩ := hforms b w form hmem
  refine ⟨decode_of_encode_eq hbytes, fun v hget => ?_, fun f hget => ?_⟩
  · rw [hexec, hlen, ← hpc s v]
    exact readThen_eq_next_iff.2 ⟨v, hget, rfl⟩
  · rw [hexec]
    exact readThen_eq_fault_iff.2 hget

theorem storesByte_of_runsAsStore {forms : Byte → Word → List StoreForm} {value : State → Byte}
    (hforms : ∀ b w, ∀ form ∈ forms b w, RunsAsStore value form) : StoresByte forms value := by
  intro b w s form hmem
  obtain ⟨hbytes, hlen, hexec⟩ := hforms b w form hmem
  refine ⟨decode_of_encode_eq hbytes, fun ea hea hbound => ?_, fun f hfault => ?_⟩
  · refine ⟨_, (hexec s).trans (storeByte_eq_next_iff.2 ⟨ea, hea, hbound, rfl⟩), by rw [hlen]; rfl, fun hinv => ?_,
      fun a => memRead_of_write rfl rfl⟩
    obtain ⟨-, -, -, -, hwf, -⟩ := hinv
    exact memRead_eq_ok_iff.2 ⟨hbound, Memory.read_write_same hwf _ _⟩
  · rw [hexec]
    exact storeByte_eq_fault_iff.2 hfault

/-- A one-byte instruction that never faults, from its byte and its effect (R27, R95). -/
theorem impliedEffect_of_impliedThen {opc : Byte} {i : Instr} {effect : State → State} (hbytes : encode i = [opc])
    (hpc : ∀ s, (effect s).pc = s.pc) (hexec : ∀ s, exec i s = impliedThen (effect s)) : ImpliedEffect opc i effect := by
  refine ⟨decode_of_encode_eq hbytes, fun s => ?_⟩
  rw [hexec, ← hpc s]
  rfl

/-! ### Loads and stores -/

/-- Settles O20: every encoding of the three mnemonics is a read that writes one register and Z and N. -/
theorem loadsWriteRegisterAndZN : Obligations.LoadsWriteRegisterAndZN := by
  refine ⟨?lda, ?ldx, ?ldy⟩
  all_goals
    refine readsOperand_of_runsAsRead (fun _ _ => rfl) fun b w form hmem => ?_
    fin_cases hmem <;> exact ⟨rfl, rfl, fun _ => rfl⟩

/-- Settles O21: every encoding of the three mnemonics stores one register. -/
theorem storesWriteOneByteAndNoFlag : Obligations.StoresWriteOneByteAndNoFlag := by
  refine ⟨?sta, ?stx, ?sty⟩
  all_goals
    refine storesByte_of_runsAsStore fun b w form hmem => ?_
    fin_cases hmem <;> exact ⟨rfl, rfl, fun _ => rfl⟩

/-! ### Transfers and register steps -/

/-- Settles O22: each is an Implied-mode instruction that writes one register and Z and N. -/
theorem registerTransfersAndStepsSetZN : Obligations.RegisterTransfersAndStepsSetZN := by
  refine ⟨?tax, ?tay, ?txa, ?tya, ?inx, ?iny, ?dex, ?dey⟩
  all_goals exact impliedEffect_of_impliedThen rfl (fun _ => rfl) fun _ => rfl

/-- TXS with X in range: sp is X, and no flag is set (R157). -/
theorem exec_txs_of_le {s : State} (h : s.x.toNat ≤ s.stackCapacity) :
    exec .txs s = .next { s with sp := s.x.toNat, pc := s.pc + 1 } := if_neg (Nat.not_lt.2 h)

/-- TXS with X out of range (R157, R293). -/
theorem exec_txs_of_lt {s : State} (h : s.stackCapacity < s.x.toNat) : exec .txs s = .fault (.stackFault .txs) := if_pos h

/-- Settles O23: TSX is an Implied-mode instruction, TXS one of two cases; a byte is below 256. -/
theorem stackPointerTransfers : Obligations.StackPointerTransfers := by
  refine ⟨impliedEffect_of_impliedThen rfl (fun _ => rfl) fun _ => rfl, decode_of_encode_eq rfl, fun _ => exec_txs_of_le,
    fun _ => exec_txs_of_lt, fun s hcap => ?_⟩
  have hx : s.x.toNat < 256 := s.x.isLt
  exact ⟨_, exec_txs_of_le (hcap ▸ hx.le), hx.ne⟩

end Sys2Proof.Machine
end

section
/-! SUPPORT. The arithmetic of bytes: the exact sum and difference against the narrowed outputs (R160 to R162). -/

namespace Sys2Proof.Machine

theorem signedOverflow_iff {exact : Int} : signedOverflow exact = true ↔ exact < -128 ∨ 127 < exact := by
  simp [signedOverflow]

theorem toInt_not_byte (v : Byte) : (~~~v).toInt = -1 - v.toInt := by
  have := v.isLt
  rw [BitVec.toInt_eq_toNat_cond, BitVec.toInt_eq_toNat_cond, BitVec.toNat_not]
  omega

/-! ### The sum -/

theorem addWithCarry_r_toNat (a m : Byte) (c : Bool) :
    (addWithCarry a m c).r.toNat = (a.toNat + m.toNat + c.toNat) % 256 := BitVec.toNat_ofNat _ 8

/-- The exact signed sum leaves a byte's range when both operands have one sign and the result the other (R160). -/
theorem addWithCarry_overflow_iff {a m : Byte} {c : Bool} : (addWithCarry a m c).overflow = true ↔
    (128 ≤ a.toNat ↔ 128 ≤ m.toNat) ∧ ¬ (128 ≤ (addWithCarry a m c).r.toNat ↔ 128 ≤ a.toNat) := by
  have hr := addWithCarry_r_toNat a m c
  have := a.isLt; have := m.isLt; have := c.toNat_le
  rw [hr]
  simp only [addWithCarry, signedOverflow_iff, BitVec.toInt_eq_toNat_cond]
  omega

/-- Bit 7 of `(a ^ r) & (m ^ r)` is the overflow of the sum (R160). -/
theorem addWithCarry_overflow_eq_bit_seven (a m : Byte) (c : Bool) : (addWithCarry a m c).overflow
    = ((a ^^^ (addWithCarry a m c).r) &&& (m ^^^ (addWithCarry a m c).r)).getLsbD 7 := by
  rw [Bool.eq_iff_iff, addWithCarry_overflow_iff, BitVec.getLsbD_and, BitVec.getLsbD_xor, BitVec.getLsbD_xor]
  simp only [← getLsbD_seven_iff]
  generalize a.getLsbD 7 = sa, m.getLsbD 7 = sm, (addWithCarry a m c).r.getLsbD 7 = sr
  revert sa sm sr
  decide

/-- Settles O16: the outputs are narrowed from the exact sums, and the overflow is read off the three signs. -/
theorem addWithCarryIsExactThenNarrowed : Obligations.AddWithCarryIsExactThenNarrowed := fun a m c =>
  ⟨addWithCarry_r_toNat a m c, decide_eq_true_iff, signedOverflow_iff, addWithCarry_overflow_eq_bit_seven a m c⟩

/-! ### The difference -/

theorem subWithBorrow_r_toNat (a m : Byte) (c : Bool) :
    ((subWithBorrow a m c).r.toNat : Int) = ((a.toNat : Int) - m.toNat - (1 - c.toNat)) % 256 := by
  rw [subWithBorrow, BitVec.toNat_ofInt]
  omega

/-- `a - m - (1 - c)` is `a + (255 - m) + c` less 256 (R161). -/
theorem subWithBorrow_eq_addWithCarry_not (a m : Byte) (c : Bool) :
    subWithBorrow a m c = addWithCarry a (~~~m) c := by
  have hnot : (~~~m).toNat = 255 - m.toNat := BitVec.toNat_not
  have := m.isLt
  have hr : (subWithBorrow a m c).r = (addWithCarry a (~~~m) c).r := by
    have hadd := addWithCarry_r_toNat a (~~~m) c
    have hsub := subWithBorrow_r_toNat a m c
    exact BitVec.eq_of_toNat_eq (by omega)
  have hcarry : (subWithBorrow a m c).carry = (addWithCarry a (~~~m) c).carry := by
    simp only [subWithBorrow, addWithCarry, hnot, decide_eq_decide]
    omega
  have hoverflow : (subWithBorrow a m c).overflow = (addWithCarry a (~~~m) c).overflow := by
    simp only [subWithBorrow, addWithCarry, toInt_not_byte]
    congr 1
    omega
  rw [AluOut.mk.injEq]
  exact ⟨hr, hcarry, hoverflow⟩

/-- Bit 7 of `(a ^ m) & (a ^ r)` is the overflow of the difference (R161). -/
theorem subWithBorrow_overflow_eq_bit_seven (a m : Byte) (c : Bool) : (subWithBorrow a m c).overflow
    = ((a ^^^ m) &&& (a ^^^ (subWithBorrow a m c).r)).getLsbD 7 := by
  rw [subWithBorrow_eq_addWithCarry_not, addWithCarry_overflow_eq_bit_seven]
  simp only [BitVec.getLsbD_and, BitVec.getLsbD_xor, BitVec.getLsbD_not]
  generalize a.getLsbD 7 = sa, m.getLsbD 7 = sm, (addWithCarry a (~~~m) c).r.getLsbD 7 = sr
  revert sa sm sr
  decide

/-- SBC with the complemented carry undoes ADC (R171). -/
theorem subWithBorrow_addWithCarry (a m : Byte) (c : Bool) :
    (subWithBorrow (addWithCarry a m c).r m (!c)).r = a := by
  have hsum := addWithCarry_r_toNat a m c
  have hdiff := subWithBorrow_r_toNat (addWithCarry a m c).r m (!c)
  have hborrow : (1 : Int) - (!c).toNat = c.toNat := by cases c <;> rfl
  have := a.isLt
  exact BitVec.eq_of_toNat_eq (by omega)

/-- Settles O17: the difference is the sum with the complement, so its overflow is that sum's. -/
theorem subWithBorrowIsAddOfTheComplement : Obligations.SubWithBorrowIsAddOfTheComplement := fun a m c =>
  ⟨subWithBorrow_r_toNat a m c, decide_eq_true_iff, signedOverflow_iff, subWithBorrow_eq_addWithCarry_not a m c,
    subWithBorrow_overflow_eq_bit_seven a m c, subWithBorrow_addWithCarry a m c⟩

/-! ### The comparison -/

theorem ofInt_toNat_sub (reg m : Byte) : BitVec.ofInt 8 ((reg.toNat : Int) - m.toNat) = reg - m := by
  apply BitVec.eq_of_toNat_eq
  rw [BitVec.toNat_ofInt, BitVec.toNat_sub]
  omega

/-- With carry 1 nothing is borrowed: the difference of the two bytes (R162). -/
theorem subWithBorrow_true_r (reg m : Byte) : (subWithBorrow reg m true).r = reg - m := by
  simp [subWithBorrow, ofInt_toNat_sub]

theorem Flags.setCompare_eq (f : Flags) (reg m : Byte) : f.setCompare reg m =
    { f with n := (reg - m).getLsbD 7, z := reg == m, c := decide (m.toNat ≤ reg.toNat) } := by
  rw [Flags.setCompare, ofInt_toNat_sub]

/-- Settles O18: the flags of the byte difference; two bytes are equal when their difference is zero. -/
theorem compareIsSubtractWithoutBorrow : Obligations.CompareIsSubtractWithoutBorrow := by
  intro f reg m
  rw [Flags.setCompare_eq, subWithBorrow_true_r]
  refine ⟨decide_eq_true_iff, beq_iff_eq, rfl, rfl, ?carry, rfl, ?zero⟩
  case carry => simp [subWithBorrow]
  case zero => rw [Bool.eq_iff_iff, beq_iff_eq, beq_iff_eq]; exact sub_eq_zero.symm

end Sys2Proof.Machine
end

section
/-! SUPPORT. The arithmetic, logical and compare instructions: each encoding is a read with the effect its rule gives (R170 to R182). -/

namespace Sys2Proof.Machine

open Sys2Proof.Claims

/-- Settles O24: every encoding is a read that writes A and the flags of the sum. -/
theorem adcAddsOperandAndCarry : Obligations.AdcAddsOperandAndCarry := by
  refine readsOperand_of_runsAsRead (fun _ _ => rfl) fun b w form hmem => ?_
  fin_cases hmem <;> exact ⟨rfl, rfl, fun _ => rfl⟩

/-- Settles O25: every encoding is a read that writes A and the flags of the difference. -/
theorem sbcSubtractsOperandAndBorrow : Obligations.SbcSubtractsOperandAndBorrow := by
  refine readsOperand_of_runsAsRead (fun _ _ => rfl) fun b w form hmem => ?_
  fin_cases hmem <;> exact ⟨rfl, rfl, fun _ => rfl⟩

/-- Settles O26: every encoding of the three mnemonics is a read that writes A and Z and N. -/
theorem logicalOperationsOnAccumulator : Obligations.LogicalOperationsOnAccumulator := by
  refine ⟨?and, ?ora, ?eor⟩
  all_goals
    refine readsOperand_of_runsAsRead (fun _ _ => rfl) fun b w form hmem => ?_
    fin_cases hmem <;> exact ⟨rfl, rfl, fun _ => rfl⟩

/-- Settles O27: both encodings are reads that write the flags Z, N and V alone. -/
theorem bitTestsAccumulatorAgainstOperand : Obligations.BitTestsAccumulatorAgainstOperand := by
  refine readsOperand_of_runsAsRead (fun _ _ => rfl) fun b w form hmem => ?_
  fin_cases hmem <;> exact ⟨rfl, rfl, fun _ => rfl⟩

/-- Settles O28: every encoding of the three mnemonics is a read that writes the flags of one comparison. -/
theorem comparesSetNZCOnly : Obligations.ComparesSetNZCOnly := by
  simp only [Obligations.ComparesSetNZCOnly, ← Flags.setCompare_eq]
  refine ⟨?cmp, ?cpx, ?cpy⟩
  all_goals
    refine readsOperand_of_runsAsRead (fun _ _ => rfl) fun b w form hmem => ?_
    fin_cases hmem <;> exact ⟨rfl, rfl, fun _ => rfl⟩

end Sys2Proof.Machine
end

section
/-! SUPPORT. The arithmetic of shifts and rotations of one byte; a rotation through the carry turns a ring of nine bits (R190 to R194). -/

namespace Sys2Proof.Machine

/-! ### In exact arithmetic -/

theorem shl_one_eq_ofNat (v : Byte) : v <<< 1 = BitVec.ofNat 8 (2 * v.toNat) := by
  apply BitVec.eq_of_toNat_eq
  rw [BitVec.toNat_shiftLeft, Nat.shiftLeft_eq, BitVec.toNat_ofNat]
  omega

theorem shr_one_eq_ofNat (v : Byte) : v >>> 1 = BitVec.ofNat 8 (v.toNat / 2) := by
  apply BitVec.eq_of_toNat_eq
  rw [BitVec.toNat_ushiftRight, Nat.shiftRight_eq_div_pow, BitVec.toNat_ofNat]
  omega

/-- The carry enters at bit 0, which the shift has vacated: a disjoint or is a sum (R192). -/
theorem rotateLeft_fst (v : Byte) (c : Bool) : (rotateLeft v c).1 = BitVec.ofNat 8 (2 * v.toNat + c.toNat) := by
  have hvacated : v <<< 1 &&& BitVec.ofNat 8 c.toNat = 0#8 := by
    ext k hk
    interval_cases k <;> cases c <;> simp
  rw [rotateLeft, ← BitVec.add_eq_or_of_and_eq_zero _ _ hvacated, shl_one_eq_ofNat, BitVec.ofNat_add]

/-- The carry enters at bit 7, which the shift has vacated (R193). -/
theorem rotateRight_fst (v : Byte) (c : Bool) : (rotateRight v c).1 = BitVec.ofNat 8 (v.toNat / 2 + 128 * c.toNat) := by
  have hvacated : v >>> 1 &&& BitVec.ofNat 8 c.toNat <<< 7 = 0#8 := by
    ext k hk
    interval_cases k <;> cases c <;> simp
  have hcarry : BitVec.ofNat 8 c.toNat <<< 7 = BitVec.ofNat 8 (128 * c.toNat) := by cases c <;> rfl
  rw [rotateRight, ← BitVec.add_eq_or_of_and_eq_zero _ _ hvacated, shr_one_eq_ofNat, hcarry, BitVec.ofNat_add]

/-! ### The ring of nine bits -/

/-- The byte's bits 0 to 7 and, next to them, the carry as bit 8: the ring that a rotation turns by one place. -/
def ringBit (p : Byte × Bool) (k : Fin 9) : Bool := (BitVec.cons p.2 p.1)[k]

theorem ringBit_carry (p : Byte × Bool) : ringBit p 8 = p.2 := by
  simp [ringBit, BitVec.getElem_cons]

theorem ringBit_byte (p : Byte × Bool) {k : Nat} (h : k < 8) : ringBit p ⟨k, h.trans (by decide)⟩ = p.1[k] := by
  simp [ringBit, BitVec.getElem_cons, h.ne]

theorem ringBit_ext {p q : Byte × Bool} (h : ∀ k, ringBit p k = ringBit q k) : p = q := by
  refine Prod.ext (BitVec.eq_of_getElem_eq fun k hk => ?_) ?_
  · rw [← ringBit_byte p hk, h, ringBit_byte q hk]
  · rw [← ringBit_carry p, h, ringBit_carry]

/-- A left rotation brings each bit from one place below, the carry from bit 7, bit 0 from the carry (R192). -/
theorem ringBit_rotateLeft (p : Byte × Bool) (k : Fin 9) : ringBit (rotateLeft p.1 p.2) k = ringBit p (k + 8) := by
  obtain ⟨v, c⟩ := p
  fin_cases k <;> cases c <;> simp [ringBit, rotateLeft, BitVec.getElem_cons]

/-- A right rotation brings each bit from one place above, the carry from bit 0, bit 7 from the carry (R193). -/
theorem ringBit_rotateRight (p : Byte × Bool) (k : Fin 9) : ringBit (rotateRight p.1 p.2) k = ringBit p (k + 1) := by
  obtain ⟨v, c⟩ := p
  fin_cases k <;> cases c <;> simp [ringBit, rotateRight, BitVec.getElem_cons]

/-! ### Nine applications -/

section
variable {turn : Byte × Bool → Byte × Bool} {places : Fin 9}
  (hturn : ∀ p k, ringBit (turn p) k = ringBit p (k + places))
include hturn

theorem ringBit_iterate (p : Byte × Bool) (n : Nat) (k : Fin 9) : ringBit (turn^[n] p) k = ringBit p (k + n • places) := by
  induction n generalizing k with
  | zero => simp
  | succ n ih => rw [Function.iterate_succ_apply', hturn, ih, succ_nsmul', add_assoc]

/-- Nine turns by the same number of places bring the ring of nine home. -/
theorem iterate_nine_of_ringBit (p : Byte × Bool) : turn^[9] p = p := by
  have hround : ∀ δ : Fin 9, 9 • δ = 0 := by decide
  exact ringBit_ext fun k => by rw [ringBit_iterate hturn, hround, add_zero]

end

/-! ### The steps, and the statement -/

theorem incByte_toNat (v : Byte) : (incByte v).toNat = (v.toNat + 1) % 256 := BitVec.toNat_add v 1

theorem decByte_toNat (v : Byte) : (decByte v).toNat = (v.toNat + 255) % 256 := by
  rw [decByte, BitVec.toNat_sub, Nat.add_comm]
  rfl

/-- Settles O19: each function in exact arithmetic; either rotation turns the ring of nine bits by one place. -/
theorem shiftsRotatesAndStepsOfOneByte : Obligations.ShiftsRotatesAndStepsOfOneByte := fun v c =>
  ⟨Prod.ext (shl_one_eq_ofNat v) rfl, Prod.ext (shr_one_eq_ofNat v) rfl, Prod.ext (rotateLeft_fst v c) rfl,
    Prod.ext (rotateRight_fst v c) rfl, incByte_toNat v, decByte_toNat v,
    iterate_nine_of_ringBit ringBit_rotateLeft (v, c), iterate_nine_of_ringBit ringBit_rotateRight (v, c)⟩

end Sys2Proof.Machine
end

section
/-! SUPPORT. From the read-modify-write operation to the contract of its mnemonics, and the shifts, rotates, INC and DEC (R70, R96, R200 to R211). -/

namespace Sys2Proof.Machine

open Sys2Proof.Claims

/-- The encoding of an instruction that changes the byte at its effective address, which always resolves (R70, R109). -/
structure RunsAsModify (change : State → Byte → Byte × Flags) (form : StoreForm) : Prop where
  encoded : encode form.instr = form.bytes
  length : form.bytes.length = form.mode.length
  resolves : ∀ s, ∃ ea, effectiveAddress s form.mode = .ok ea
  exec_eq : ∀ s, exec form.instr s = modifyThen (.mem form.mode) s (change s)

theorem modifiesMemory_of_runsAsModify {forms : Byte → Word → List StoreForm} {change : State → Byte → Byte × Flags}
    (hforms : ∀ b w, ∀ form ∈ forms b w, RunsAsModify change form) :
    ModifiesMemory forms (fun s v => (change s v).1) (fun s v => (change s v).2) := by
  intro b w s form hmem
  obtain ⟨hbytes, hlen, hresolves, hexec⟩ := hforms b w form hmem
  obtain ⟨ea, hea⟩ := hresolves s
  refine ⟨ea, hea, decode_of_encode_eq hbytes, fun v hread => ?_, fun f hread => ?_⟩
  · obtain ⟨hbound, rfl⟩ := memRead_eq_ok_iff.1 hread
    refine ⟨_, (hexec s).trans (modifyThen_mem_eq_next_iff.2 ⟨ea, hea, hbound, rfl⟩), by rw [hlen]; rfl, fun hinv => ?_,
      fun a => memRead_of_write rfl rfl⟩
    obtain ⟨-, -, -, -, hwf, -⟩ := hinv
    exact memRead_eq_ok_iff.2 ⟨hbound, Memory.read_write_same hwf _ _⟩
  · obtain ⟨hunbound, rfl⟩ := memRead_eq_error_iff.1 hread
    rw [hexec]
    exact modifyThen_mem_eq_fault_iff.2 (.inr ⟨ea, hea, hunbound, rfl⟩)

/-- What a shift or rotate makes of the old byte: the new byte, and C, Z and N from it (R200 to R203). -/
def shiftChange (f : Byte → Bool → Byte × Bool) (s : State) (v : Byte) : Byte × Flags :=
  ((f v s.flags.c).1, Flags.setZN { s.flags with c := (f v s.flags.c).2 } (f v s.flags.c).1)

/-- A shift or rotate of the accumulator, from its byte (R96). -/
theorem impliedEffect_of_shiftOp_acc {opc : Byte} {i : Instr} {f : Byte → Bool → Byte × Bool}
    (hbytes : encode i = [opc]) (hexec : ∀ s, exec i s = shiftOp f .acc s) :
    ImpliedEffect opc i (fun s => { s with a := (shiftChange f s s.a).1, flags := (shiftChange f s s.a).2 }) :=
  ⟨decode_of_encode_eq hbytes, fun s => (hexec s).trans modifyThen_acc_eq⟩

/-- What INC or DEC makes of the old byte: the new byte, and Z and N from it (R210, R211). -/
def stepChange (f : Byte → Byte) (s : State) (v : Byte) : Byte × Flags := (f v, s.flags.setZN (f v))

/-- Settles O29: the accumulator forms change A, every memory encoding the byte at its address; a shift does not look at the
old carry. -/
theorem shiftsAndRotatesWriteBack : Obligations.ShiftsAndRotatesWriteBack := by
  refine ⟨impliedEffect_of_shiftOp_acc (f := shiftLeft) rfl fun _ => rfl,
    impliedEffect_of_shiftOp_acc (f := shiftRight) rfl fun _ => rfl,
    impliedEffect_of_shiftOp_acc (f := rotateLeft) rfl fun _ => rfl,
    impliedEffect_of_shiftOp_acc (f := rotateRight) rfl fun _ => rfl,
    modifiesMemory_of_runsAsModify (change := shiftChange shiftLeft) ?asl,
    modifiesMemory_of_runsAsModify (change := shiftChange shiftRight) ?lsr,
    modifiesMemory_of_runsAsModify (change := shiftChange rotateLeft) ?rol,
    modifiesMemory_of_runsAsModify (change := shiftChange rotateRight) ?ror⟩
  all_goals
    intro b w form hmem
    fin_cases hmem <;> exact ⟨rfl, rfl, fun _ => ⟨_, rfl⟩, fun _ => rfl⟩

/-- Settles O30: every memory encoding of the two mnemonics changes the byte at its address. -/
theorem incAndDecMemoryByte : Obligations.IncAndDecMemoryByte := by
  refine ⟨modifiesMemory_of_runsAsModify (change := stepChange incByte) ?inc,
    modifiesMemory_of_runsAsModify (change := stepChange decByte) ?dec⟩
  all_goals
    intro b w form hmem
    fin_cases hmem <;> exact ⟨rfl, rfl, fun _ => ⟨_, rfl⟩, fun _ => rfl⟩

end Sys2Proof.Machine
end

section
/-! SUPPORT. The control transfers: branches, JMP, JSR, RTS, BRK and RTI, each said once of the state it leaves and of the fault it raises (R220 to R244). -/

namespace Sys2Proof.Machine

open Sys2Proof.Claims

variable {s : State} {w target : Word} {lo hi : Byte} {f : Fault}

/-! ### Branches -/

/-- An instruction that branches exactly when it sets pc meets the contract of the condition on which it sets pc (R29, R220). -/
theorem branchesWhen_of_branch {opc : Byte} {instr : Byte → Instr} {cond : Flags → Prop}
    (hbytes : ∀ b, encode (instr b) = [opc, b])
    (hexec : ∀ b s, exec (instr b) s = branch (setsPc (instr b) s.flags) b s)
    (hcond : ∀ b f, setsPc (instr b) f = true ↔ cond f) : BranchesWhen opc instr cond := by
  refine fun b s => ⟨decode_of_encode_eq (hbytes b), fun htaken => ?_, fun huntaken => ?_⟩
  · rw [hexec, branch_eq, if_pos ((hcond b _).2 htaken)]; rfl
  · rw [hexec, branch_eq, if_neg (mt (hcond b _).1 huntaken)]

/-- Settles O32: four branches set pc on their flag, four on its complement. -/
theorem branchesTestTheirFlag : Obligations.BranchesTestTheirFlag := by
  refine ⟨?bcc, ?bcs, ?beq, ?bne, ?bpl, ?bmi, ?bvc, ?bvs⟩
  case bcs | beq | bmi | bvs =>
    exact branchesWhen_of_branch (fun _ => rfl) (fun _ _ => rfl) fun _ _ => Iff.rfl
  case bcc | bne | bpl | bvc =>
    exact branchesWhen_of_branch (fun _ => rfl) (fun _ _ => rfl) fun _ _ => iff_of_eq (Bool.not_eq_true' _)

/-! ### Jumps -/

/-- The word stored at two readable addresses, in exact arithmetic (R67). -/
theorem memRead16_of_bytes (hlo : memRead s w = .ok lo) (hhi : memRead s (w + 1) = .ok hi) :
    memRead16 s w = .ok (BitVec.ofNat 16 (hi.toNat * 256 + lo.toNat)) :=
  memRead16_eq_ok_iff.2 ⟨lo, hi, hlo, hhi, (wordOf_eq_ofNat hi lo).symm⟩

theorem exec_jmpInd_of_target (h : memRead16 s w = .ok target) : exec (.jmpInd w) s = .next { s with pc := target } :=
  finish_eq_next_iff.2 (bind_eq_ok_iff.2 ⟨target, h, rfl⟩)

theorem exec_jmpInd_of_fault (h : memRead16 s w = .error f) : exec (.jmpInd w) s = .fault f :=
  finish_eq_fault_iff.2 (bind_eq_error_iff.2 (.inl h))

/-- Settles O33: the indirect form is one 16-bit read, the absolute form reads nothing. -/
theorem jmpGoesToOperandOrStoredWord : Obligations.JmpGoesToOperandOrStoredWord := fun _ _ =>
  ⟨decode_of_encode_eq rfl, decode_of_encode_eq rfl, rfl,
    fun _ _ hlo hhi => exec_jmpInd_of_target (memRead16_of_bytes hlo hhi),
    fun _ hlo => exec_jmpInd_of_fault (memRead16_eq_error_iff.2 (.inl hlo)),
    fun lo _ hlo hhi => exec_jmpInd_of_fault (memRead16_eq_error_iff.2 (.inr ⟨lo, hlo, hhi⟩))⟩

/-! ### Call and return -/

/-- The state a JSR leaves when two entries fit (R241). -/
def calledState (s : State) (w : Word) : State :=
  { s with
    stack := (s.stack.set s.sp (hi8 (s.pc + 2))).set (s.sp + 1) (lo8 (s.pc + 2))
    sp := s.sp + 2
    pc := w }

theorem exec_jsr_of_room (hroom : s.sp + 2 ≤ s.stackCapacity) : exec (.jsrAbs w) s = .next (calledState s w) :=
  finish_eq_next_iff.2 (bind_eq_ok_iff.2 ⟨_, stackPush16_eq_ok_iff.2 ⟨hroom, rfl⟩, rfl⟩)

theorem exec_jsr_of_full (hfull : s.stackCapacity < s.sp + 2) : exec (.jsrAbs w) s = .fault (.stackFault .push) :=
  finish_eq_fault_iff.2 (bind_eq_error_iff.2 (.inl (stackPush16_eq_error_iff.2 ⟨hfull, rfl⟩)))

/-- Settles O34: JSR is one 16-bit push, with room or without. -/
theorem jsrPushesReturnAddressAndJumps : Obligations.JsrPushesReturnAddressAndJumps :=
  fun _ _ _ => ⟨decode_of_encode_eq rfl, exec_jsr_of_room, exec_jsr_of_full⟩

/-- A 16-bit pull completes only with two entries, and the fault it raises otherwise is the pull's (R48). -/
theorem stackPop16_of_short (hshort : s.sp < 2) : stackPop16 s = .error (.stackFault .pop) := by
  cases hpop : stackPop16 s with
  | ok r =>
    obtain ⟨htwo, -⟩ := stackPop16_eq_ok_iff.1 hpop
    omega
  | error f => rw [stackPop16_eq_error hpop]

theorem exec_rts_of_entries (hsp : 2 ≤ s.sp) (hlo : s.stack[s.sp - 1]? = some lo) (hhi : s.stack[s.sp - 2]? = some hi) :
    exec .rts s = .next { s with sp := s.sp - 2, pc := wordOf hi lo + 1 } :=
  finish_eq_next_iff.2 (bind_eq_ok_iff.2 ⟨_, stackPop16_eq_ok_iff.2 ⟨hsp, lo, hi, hlo, hhi, rfl, rfl⟩, rfl⟩)

theorem exec_rts_of_short (hshort : s.sp < 2) : exec .rts s = .fault (.stackFault .pop) :=
  finish_eq_fault_iff.2 (bind_eq_error_iff.2 (.inl (stackPop16_of_short hshort)))

/-- Settles O35: the invariant gives the two entries of the pulled word. -/
theorem rtsReturnsPastPulledAddress : Obligations.RtsReturnsPastPulledAddress := by
  refine fun s hinv => ⟨decode_of_encode_eq rfl, fun hsp => ?_, exec_rts_of_short⟩
  obtain ⟨lo, hlo⟩ := hinv.exists_entry (by omega : s.sp - 1 < s.sp)
  obtain ⟨hi, hhi⟩ := hinv.exists_entry (by omega : s.sp - 2 < s.sp)
  refine ⟨lo, hi, hlo, hhi, ?_⟩
  rw [exec_rts_of_entries hsp hlo hhi, wordOf_eq_ofNat, BitVec.ofNat_add _ 1]; rfl

/-- A step at a three-byte instruction is its meaning with the operand word. -/
theorem step_of_three {opc : Byte} {mk : Word → Instr} (hopc : memRead s s.pc = .ok opc)
    (hrow : decodeOpcode opc = some (.three mk)) (hlo : memRead s (s.pc + 1) = .ok (lo8 w))
    (hhi : memRead s (s.pc + 2) = .ok (hi8 w)) : step s = exec (mk w) s := by
  refine step_of_fetch ?_
  simp only [fetch_of_three hopc hrow, hlo, hhi, bind, Except.bind, wordOf_hi8_lo8]

/-- Settles O59: RTS pulls the two bytes that JSR pushed, which are the last of the call, and adds 1. -/
theorem jsrThenRtsReturnsBehindTheCall : Obligations.JsrThenRtsReturnsBehindTheCall := by
  intro s w hinv hroom hjsr hlow hhigh hrts
  obtain ⟨-, hstack, -⟩ := hinv
  obtain ⟨hhi, hlo⟩ := getElem?_set_set (u := hi8 (s.pc + 2)) (v := lo8 (s.pc + 2)) (by omega : s.sp + 1 < s.stack.length)
  have hcall := (step_of_three hjsr rfl hlow hhigh).trans (exec_jsr_of_room hroom)
  have hreturn := (step_of_one (s := calledState s w) hrts rfl).trans
    (exec_rts_of_entries (Nat.le_add_left ..) hlo hhi)
  refine ⟨_, core_run_two hcall hreturn, ?_, fun k hk => ?_⟩
  · apply State.eq_of_fields <;> simp [calledState, BitVec.add_assoc]
  · exact (getElem?_set_above (by omega)).trans (getElem?_set_above hk)

/-! ### The software break and its return -/

theorem exec_brk_of_full (hfull : s.stackCapacity < s.sp + 3) : exec .brk s = .fault (.stackFault .push) :=
  finish_eq_fault_iff.2 (takeBreak_eq_error_iff.2 (.inl ⟨hfull, rfl⟩))

theorem exec_brk_of_vector_fault (hroom : s.sp + 3 ≤ s.stackCapacity) (hvector : memRead16 s Config.brkVector = .error f) :
    exec .brk s = .fault f :=
  finish_eq_fault_iff.2 (takeBreak_eq_error_iff.2 (.inr ⟨hroom, hvector⟩))

/-- Settles O36: room comes first, then the vector is one 16-bit read. -/
theorem brkTakesTheSoftwareBreak : Obligations.BrkTakesTheSoftwareBreak := fun _ _ =>
  ⟨decode_of_encode_eq rfl, fun _ _ hroom hlo hhi => exec_brk_of_room hroom (memRead16_of_bytes hlo hhi), exec_brk_of_full,
    fun _ hroom hlo => exec_brk_of_vector_fault hroom (memRead16_eq_error_iff.2 (.inl hlo)),
    fun lo _ hroom hlo hhi => exec_brk_of_vector_fault hroom (memRead16_eq_error_iff.2 (.inr ⟨lo, hlo, hhi⟩))⟩

/-- A return from the break completes only with three entries, and the fault it raises otherwise is the pull's (R301). -/
theorem exec_rti_of_short (hshort : s.sp < 3) : exec .rti s = .fault (.stackFault .pop) := by
  refine finish_eq_fault_iff.2 ?_
  cases hreturn : returnFromBreak s with
  | ok t =>
    obtain ⟨hthree, -⟩ := returnFromBreak_eq_ok_iff.1 hreturn
    omega
  | error f => rw [returnFromBreak_eq_error hreturn]

/-- Settles O37: the invariant gives the entries of the status and of the pulled word. -/
theorem rtiRestoresFlagsAndPc : Obligations.RtiRestoresFlagsAndPc := by
  refine fun s hinv => ⟨decode_of_encode_eq rfl, fun hsp => ?_, exec_rti_of_short⟩
  obtain ⟨p, hp⟩ := hinv.exists_entry (by omega : s.sp - 1 < s.sp)
  obtain ⟨lo, hlo⟩ := hinv.exists_entry (by omega : s.sp - 2 < s.sp)
  obtain ⟨hi, hhi⟩ := hinv.exists_entry (by omega : s.sp - 3 < s.sp)
  refine ⟨p, lo, hi, hp, hlo, hhi, ?_⟩
  rw [exec_rti_of_entries hsp hp hlo hhi, wordOf_eq_ofNat]

end Sys2Proof.Machine
end

section
/-! SUPPORT. The pushes and pulls of one byte, the flag instructions and NOP (R260 to R287). -/

namespace Sys2Proof.Machine

variable {s : State} {v : Byte}

/-! ### Push and pull of one byte -/

theorem exec_pha_of_room (hroom : s.sp < s.stackCapacity) : exec .pha s = .next (pushedState s s.a) :=
  pushThen_eq_next_iff.2 ⟨hroom, rfl⟩

theorem pushThen_of_full (hfull : s.sp = s.stackCapacity) : pushThen s v = .fault (.stackFault .push) :=
  pushThen_eq_fault_iff.2 ⟨hfull.ge, rfl⟩

/-- Settles O38: both are one push, of A or of the packed flags, with room or without. -/
theorem phaAndPhpPushOneByte : Obligations.PhaAndPhpPushOneByte :=
  fun _ _ => ⟨decode_of_encode_eq rfl, decode_of_encode_eq rfl,
    fun hroom => ⟨exec_pha_of_room hroom, exec_php_of_room hroom⟩,
    fun hfull => ⟨pushThen_of_full hfull, pushThen_of_full hfull⟩⟩

theorem exec_pla_of_entry (hsp : s.sp ≠ 0) (hv : s.stack[s.sp - 1]? = some v) :
    exec .pla s = .next { s with a := v, flags := s.flags.setZN v, sp := s.sp - 1, pc := s.pc + 1 } :=
  pullThen_eq_next_iff (effect := fun v t => (t.setReg .a v).setZN v).2 ⟨hsp, v, hv, rfl⟩

theorem pullThen_of_empty {effect : Byte → State → State} (hempty : s.sp = 0) :
    pullThen s effect = .fault (.stackFault .pop) :=
  finish_eq_fault_iff.2 (bind_eq_error_iff.2 (.inl (stackPop_of_empty hempty)))

/-- Settles O39: both are one pull, and the invariant gives the entry under the top. -/
theorem plaAndPlpPullOneByte : Obligations.PlaAndPlpPullOneByte := by
  refine fun s hinv => ⟨decode_of_encode_eq rfl, decode_of_encode_eq rfl, fun hpos => ?_,
    fun hempty => show execPla s = _ ∧ execPlp s = _ from ⟨pullThen_of_empty hempty, pullThen_of_empty hempty⟩⟩
  obtain ⟨v, hv⟩ := hinv.exists_entry (Nat.sub_lt hpos one_pos)
  exact ⟨v, hv, exec_pla_of_entry hpos.ne' hv, exec_plp_of_entry hpos.ne' hv⟩

/-! ### Flag instructions and NOP -/

/-- NOP has one opcode byte (R287). -/
theorem eq_of_decode_nop {opc : Byte} {rest rest' : List Byte} (h : decode (opc :: rest) = .ok (.nop, rest')) :
    opc = 0xEA := by
  have hbytes : opc :: rest = 0xEA :: rest' := (decodes_of_decode h).bytes_eq
  exact List.head_eq_of_cons_eq hbytes

/-- Settles O40: each is an Implied-mode instruction that writes one flag, NOP none; the encoding of NOP is its one byte. -/
theorem flagInstructionsWriteOneFlagAndNopNone : Obligations.FlagInstructionsWriteOneFlagAndNopNone := by
  refine ⟨?clc, ?cld, ?cli, ?clv, ?sec, ?sed, ?sei, ?nop, fun _ _ _ => eq_of_decode_nop⟩
  all_goals exact impliedEffect_of_impliedThen rfl (fun _ => rfl) fun _ => rfl

end Sys2Proof.Machine
end

section
/-! SUPPORT. What the host sees of an instruction: a next state or a fault of its own, never a refusal, and a fault repeats (R290, R293, R294, R296). -/

namespace Sys2Proof.Machine

variable {i : Instr} {s : State}

/-! ### No instruction is refused -/

/-- An operation computes the next state, or ends in `finish`, or does the one or the other by a condition. -/
theorem Runs.ne_refused {run : State → Result} (hr : Runs i run) (s : State) (r : Refusal) : run s ≠ .refused r := by
  cases hr with
  | implied | jump => exact nofun
  | read | store | modify | jumpIndirect | call | ret | brk | rti | push | pull => exact finish_ne_refused
  | branch b => exact branch_eq.trans_ne nofun
  | txs =>
    unfold execTxs
    split <;> exact nofun

/-- Every instruction of the table has its meaning (R290). -/
theorem exec_ne_refused (i : Instr) (s : State) (r : Refusal) : exec i s ≠ .refused r := (exec_runs i).ne_refused s r

/-! ### The fault kinds by instruction -/

theorem Raises.ne_illegalOpcode {opc : Byte} {pc : Word} : ¬ Raises i s (.illegalOpcode opc pc) := nofun

theorem Raises.mnemonic_of_push (h : Raises i s (.stackFault .push)) : i.mnemonic ∈ [Mnemonic.pha, .php, .jsr, .brk] := by
  cases h with
  | full hi => exact hi

theorem Raises.mnemonic_of_pop (h : Raises i s (.stackFault .pop)) : i.mnemonic ∈ [Mnemonic.pla, .plp, .rts, .rti] := by
  cases h with
  | empty hi => exact hi

theorem Raises.mnemonic_of_txs (h : Raises i s (.stackFault .txs)) : i.mnemonic = .txs := by
  cases h with
  | topOutOfRange hi => exact hi

theorem Raises.address {a : Nat} (h : Raises i s (.outOfBoundsAccess a)) : s.memLen ≤ a ∧ a < 65536 := by
  cases h with
  | unbound w hunbound => exact ⟨hunbound, w.isLt⟩

/-- Settles O47: no operation is refused, and a fault is one that the instruction may raise. -/
theorem everyInstructionCompletesOrRaisesItsFault : Obligations.EveryInstructionCompletesOrRaisesItsFault :=
  fun i s => ⟨exec_ne_refused i s, fun _ _ h => (exec_raises h).ne_illegalOpcode, fun h => (exec_raises h).mnemonic_of_push,
    fun h => (exec_raises h).mnemonic_of_pop, fun h => (exec_raises h).mnemonic_of_txs, fun _ h => (exec_raises h).address⟩

/-! ### A fault repeats -/

/-- Settles O51: the fault leaves the state as it is, so the next step is the same step. -/
theorem faultingStepChangesNothingAndRepeats : Obligations.FaultingStepChangesNothingAndRepeats := by
  intro s f hstep
  have hkept : stateAfter s = s := stateAfter_of_fault hstep
  exact ⟨hkept, stepReport_of_fault hstep, by rw [hkept, hstep]⟩

end Sys2Proof.Machine
end

section
/-! SUPPORT. The host's two transactions in full: what a constructed core holds, which byte each address has after `load`, and which loads fault or are refused (R330 to R333). -/

namespace Sys2Proof.Machine

variable {image : List Byte} {origin : Word} {given : Option Nat} {others : List Host.Cell} {s : State}

/-! ### The bytes of a launch -/

/-- A byte sequence written from an address on is read back: each later byte goes to a later address. -/
theorem Memory.read_writeCells_imageCells {v : Byte} :
    ∀ {m : Memory} {addr i : Nat}, m.wf = true → image[i]? = some v →
      (m.writeCells (imageCells addr image)).read (addr + i) = v := by
  induction image with
  | nil => intro m addr i _ hi; cases hi
  | cons head rest ih =>
    intro m addr i hwf hi
    cases i with
    | zero =>
      obtain rfl : head = v := by simpa using hi
      have hlater : ∀ c ∈ imageCells (addr + 1) rest, c.1 ≠ addr := fun c hc => by
        have := (imageCells_bounds hc).1
        omega
      exact (Memory.read_writeCells_other _ hlater).trans (Memory.read_write_same hwf addr head)
    | succ k =>
      rw [← Nat.succ_add_eq_add_succ]
      exact ih (Memory.wf_write hwf addr head) hi

/-- Each image byte is at its address, whatever the free bytes (R332). -/
theorem read_launchMemory_of_image {i memLen : Nat} {v : Byte} (hi : image[i]? = some v) :
    (launchMemory image origin memLen others).read (origin.toNat + i) = v :=
  Memory.read_writeCells_imageCells (Memory.wf_writeCells _ rfl) hi

/-- An address outside the image has what the free bytes give it (R332). -/
theorem read_launchMemory_of_uncovered {a memLen : Nat} (ha : a < origin.toNat ∨ origin.toNat + image.length ≤ a) :
    (launchMemory image origin memLen others).read a
      = (Memory.writeCells [] (others.filter fun cell => cell.1 < memLen)).read a :=
  Memory.read_writeCells_other _ fun c hc => by
    have := imageCells_bounds hc
    omega

/-- The free bytes that give every bound address its byte of `g`. -/
def freeCells (memLen : Nat) (g : Nat → Byte) : List Host.Cell := imageCells 0 ((List.range memLen).map g)

/-- `load` drops none of them: each names a bound address. -/
theorem filter_freeCells (memLen : Nat) (g : Nat → Byte) :
    ((freeCells memLen g).filter fun cell => cell.1 < memLen) = freeCells memLen g :=
  List.filter_eq_self.2 fun c hc => by simpa using (imageCells_bounds hc).2

theorem read_launchMemory_freeCells {a memLen : Nat} {g : Nat → Byte} (hbound : a < memLen)
    (ha : a < origin.toNat ∨ origin.toNat + image.length ≤ a) :
    (launchMemory image origin memLen (freeCells memLen g)).read a = g a := by
  have hbyte : ((List.range memLen).map g)[a]? = some (g a) := by simp [hbound]
  calc (launchMemory image origin memLen (freeCells memLen g)).read a
      = (Memory.writeCells [] (freeCells memLen g)).read (0 + a) := by
        rw [read_launchMemory_of_uncovered ha, filter_freeCells, Nat.zero_add]
    _ = g a := Memory.read_writeCells_imageCells rfl hbyte

/-! ### The outcomes of `load` -/

/-- An admissible MEM_LEN is the given one or, when none is given, the end of the image (R332). -/
theorem launchMemLen_eq_getD (hlen : given.getD (origin.toNat + image.length) ≤ 65536) :
    launchMemLen image origin given = given.getD (origin.toNat + image.length) := by
  cases given with
  | none => exact min_eq_left hlen
  | some n => rfl

/-- A core not yet loaded takes an image that fits in an admissible MEM_LEN (R332). -/
theorem load_of_fits {n : Nat} (hnew : s.memLen = 0) (hn : launchMemLen image origin given = n) (hpos : 1 ≤ n)
    (hlen : n ≤ 65536) (hfit : origin.toNat + image.length ≤ n) :
    load image origin given others s
      = .next { s with memLen := n, mem := launchMemory image origin n others, pc := origin } := by
  subst hn
  exact load_eq_next_iff.2 ⟨hnew, hlen, by omega, hfit, rfl⟩

/-- An image that does not fit faults at the first unbound address it needs (R333). -/
theorem load_of_unfit {n : Nat} (hnew : s.memLen = 0) (hn : launchMemLen image origin given = n) (hpos : 1 ≤ n)
    (hlen : n ≤ 65536) (hunfit : n < origin.toNat + image.length) :
    load image origin given others s = .fault (.outOfBoundsAccess (max origin.toNat n)) := by
  have hadmissible : ¬ (Config.addressSpace < n ∨ n = 0) := by
    rintro (h | h)
    · exact absurd hlen h.not_ge
    · omega
  simp [load, hnew, hn, hadmissible, hunfit]

theorem load_of_not_admissible {n : Nat} (hnew : s.memLen = 0) (hn : n = 0 ∨ 65536 < n) :
    load image origin (some n) others s = .refused .memLenNotAdmissible := by
  have hrefused : Config.addressSpace < n ∨ n = 0 := hn.symm
  simp [load, launchMemLen, hnew, hrefused]

theorem load_of_loaded (hloaded : 0 < s.memLen) : load image origin given others s = .refused .secondLoad := by
  simp [load, hloaded.ne']

/-- Settles O2: the image cells are written last and do not overlap; `freeCells` gives the others any contents. -/
theorem loadBindsImageAndSetsPc : Obligations.LoadBindsImageAndSetsPc := by
  intro image origin given n s hnew hn hpos hlen hfit
  have hmemLen : launchMemLen image origin given = n := hn ▸ launchMemLen_eq_getD (hn ▸ hlen)
  have hload : ∀ others, load image origin given others s = .next _ := fun _ => load_of_fits hnew hmemLen hpos hlen hfit
  exact ⟨fun others => ⟨_, hload others, rfl, fun _ _ => read_launchMemory_of_image⟩,
    fun g => ⟨freeCells n g, _, hload _, fun _ => read_launchMemory_freeCells⟩⟩

/-- Settles O3: without a MEM_LEN the image is given the whole address space at most, and its origin lies in it. -/
theorem loadThatDoesNotFitFaultsAndIsNotRepeated : Obligations.LoadThatDoesNotFitFaultsAndIsNotRepeated := by
  refine fun image origin others s => ⟨fun hnew => ⟨fun n => load_of_unfit hnew rfl, fun hlong => ?none,
    fun n hpos hlen hfit => ⟨_, load_of_fits hnew rfl hpos hlen hfit⟩, fun n => load_of_not_admissible hnew⟩,
    fun given => load_of_loaded⟩
  case none =>
    have hmemLen : launchMemLen image origin none = 65536 := min_eq_right hlong.le
    rw [load_of_unfit hnew hmemLen (by omega) le_rfl hlong, max_eq_right origin.isLt.le]

/-! ### A core before its `load` -/

theorem construct_stack_getElem? {capacity k : Nat} (entries : Nat → Byte) (hk : k < capacity) :
    (construct capacity entries).stack[k]? = some (entries k) := by
  simp [construct, hk]

/-- Before `load` no address is bound, so the fetch at 0x0000 faults (R330). -/
theorem step_construct (capacity : Nat) (entries : Nat → Byte) :
    step (construct capacity entries) = .fault (.outOfBoundsAccess 0) :=
  step_of_fetch_error (fetch_of_unbound (Nat.zero_le _))

/-- Settles O1: the fields are those of the reset; the step's fault changes nothing. -/
theorem constructedCoreIsZeroedAndUnbound : Obligations.ConstructedCoreIsZeroedAndUnbound := by
  intro capacity entries
  have hlength : (construct capacity entries).stack.length = capacity := by simp [construct]
  have hstep := step_construct capacity entries
  exact ⟨rfl, rfl, rfl, rfl, rfl, rfl, rfl, rfl, hlength, fun _ => construct_stack_getElem? entries, rfl, hstep,
    stateAfter_of_fault hstep⟩

end Sys2Proof.Machine
end
